-- ==== Sys2Proof/Word.lean ====
section
/-! DEFINITION. The word types of the core: 32-bit words (10_state.md R20, 40_word_ops.md R90), bytes (20_memory.md R50)
and the 12-bit micro-operation word (30_encoding.md R70). All are unsigned. -/

namespace Sys2Proof

/-- A word of the core: 32 bits, unsigned, `+` wraps modulo `2^32` (40_word_ops.md R90, R91). -/
abbrev Word := BitVec 32

/-- A byte: 8 bits (20_memory.md R50). -/
abbrev Byte := BitVec 8

/-- A length or a counter of lengths: 64 bits, unsigned (00_scope.md R11). -/
abbrev Len := BitVec 64

/-- A micro-operation word `U`: 12 bits (30_encoding.md R70). -/
abbrev MicroWord := BitVec 12

end Sys2Proof
end

