-- ==== Sys2Proof/Config.lean ====
section
/-! DEFINITION. What the spec leaves open, as constants with no body: the capacity parameter at reset and the free values
that stand for `⊥` (00_scope.md R12, R18; 93_implementation_defined.md U1, U5). Nothing can be proved of any of them. -/

namespace Sys2Proof

/-- FREE VALUE (DESIGN CHOICE, log 1). What register number `index` of the hidden register files holds once it became `⊥`
for the `draw`-th time (93_implementation_defined.md U1: `any value`, drawn at reset). -/
opaque Config.undefWord (draw index : Nat) : Word

/-- FREE VALUE (DESIGN CHOICE, log 2). What a read of a byte of `PB` that holds `⊥` gives, at offset `offset`, after the
`draw`-th release or reset (93_implementation_defined.md U1: `any value`, drawn at release). -/
opaque Config.undefByte (draw offset : Nat) : Byte

/-- OPEN PARAMETER (DESIGN CHOICE, log 4). How many 64-byte blocks beyond the first the padded-buffer memory of
`State.reset` has: `PB_CAP = 64 * (extraBlocks + 1)` (00_scope.md R12: a multiple of 64, at least 64). -/
opaque Config.extraBlocks : Nat

/-- `n` registers that hold `⊥`, numbered from `base` on: each a free value. -/
def Config.undefWords (draw base n : Nat) : Vector Word n :=
  ⟨⟨(List.range n).map fun i => Config.undefWord draw (base + i)⟩, by simp⟩

end Sys2Proof
end

