-- ==== Sys2Proof/Machine/State.lean ====
section
/-! DEFINITION. The state of one instance of the core (10_state.md) as plain data, the reasons a step can stop, and the
state after reset (10_state.md R37). -/

namespace Sys2Proof.Machine

/-- A byte memory: (offset, byte) pairs, offsets strictly rising, no pair that says what an unlisted offset already reads as
(`Memory.wf`). -/
abbrev Memory := List Host.Cell

/-- One sample of the input ports (10_state.md R34), with the message that stands behind `msg_addr`, `msg_data`. -/
structure PortIn where
  /-- `rst`: reset (70_reset_and_hazards.md R210). -/
  rst : Bool
  /-- `start`: the host's `START` command (44_engine.md R161). -/
  start : Bool
  /-- `msg_valid`: 1 when the host has a message. -/
  msgValid : Bool
  /-- `len`: the byte length of the message. -/
  len : Len
  /-- `MSG`: the message; an offset that is not listed holds `0x00` (log 5). -/
  msg : Memory
  deriving DecidableEq, Repr

/-- The ports at rest: no reset, no start. -/
def PortIn.rest : PortIn := { rst := false, start := false, msgValid := false, len := 0, msg := [] }

/-- The state of one instance (10_state.md). -/
structure State where
  /-- `H[0..7]`, the hash state (R20). -/
  h : Vector Word 8
  /-- `V[0..7]`, the working registers `a` to `h` (R21). -/
  v : Vector Word 8
  /-- `W[0..63]`, the schedule memory (R22). -/
  w : Vector Word 64
  /-- `PB`, the padded buffer (R26); an offset that is not listed holds `⊥`. -/
  pb : Memory
  /-- `PLEN`, the length of `PB` in bytes (R26). -/
  plen : Len
  /-- `NBLK`, the length of `PB` in blocks (R26). -/
  nblk : Len
  /-- `PBV`: the buffer is allocated and its content valid (R26). -/
  pbv : Bool
  /-- `DIGEST[0..31]` (R27); `none` is the spec's `⊥`, which `START` and an error write to it (log 3). -/
  digest : Option (Vector Byte 32)
  /-- `LEN`, the message length in bytes (R28). -/
  len : Len
  /-- `MV`, the copy of `msg_valid` (R28). -/
  mv : Bool
  /-- `BLK`, the index of the block being processed (R29). -/
  blk : Len
  /-- `UPC`, the slot of the next micro-operation (R30). -/
  upc : BitVec 8
  /-- `BUSY`: a run is in progress (R31). -/
  busy : Bool
  /-- `DONE`: the last run has ended (R31). -/
  done : Bool
  /-- `DVALID`: `DIGEST` holds the digest of the last run (R31). -/
  dvalid : Bool
  /-- `ERR`, the kind of error that ended the last run, or 0 (R32). -/
  err : BitVec 2
  /-- PARAMETER of the run (R25, R36): `MSG`, the host's message; an offset that is not listed holds `0x00` (log 5). -/
  msg : Memory
  /-- PARAMETER of the step (R36, 00_scope.md R12): `PB_CAP = 64 * (capExtra + 1)` (log 4). -/
  capExtra : Nat
  /-- ENVIRONMENT (R34): the samples of the input ports still to come, the next one first; none left: the ports are at
  rest (log 6). -/
  inputs : List PortIn
  /-- The MODEL's own: how many times state became `⊥`, the argument of the free values (log 20). -/
  draws : Nat
  deriving DecidableEq, Repr

/-- `PB_CAP`, the capacity of the padded-buffer memory in bytes: a multiple of 64, at least 64 (00_scope.md R12). -/
def State.pbCap (s : State) : Nat := 64 * (s.capExtra + 1)

/-- Why the machine stops with a fault: only in states that no run reaches. -/
inductive Fault where
  /-- Raised by the fetch when `UPC` is 135 or more, where the ROM has no slot (10_state.md R30, 30_encoding.md R75).
  SAFE: the model stops where the spec gives no behaviour (log 9). -/
  | noSlot
  /-- Raised by `WLD` when a byte it reads lies outside the `PB_CAP` bytes of the padded-buffer memory (10_state.md R26,
  20_memory.md R61: no such access has a defined behaviour). SAFE: the model stops where the spec gives no behaviour
  (log 10). -/
  | pbOutside
  deriving DecidableEq, Repr

/-- Why the model has no meaning for an instruction. -/
inductive Refusal where
  /-- Raised by the dispatcher for an instruction that has no meaning yet: none is left. SAFE: the model stops. -/
  | notModelled (mnemonic : String)
  /-- Raised by the step on a reserved word, and by `WLD` and `WEX` on an index for which there is no legal word
  (30_encoding.md R74: "a machine given such a word refuses it"). SAFE: the model stops (log 11). -/
  | reservedWord
  deriving DecidableEq, Repr

/-- What a step answers. -/
abbrev Result := Host.Outcome State Fault Refusal

/-- The state after reset (10_state.md R37). `H`, `V` and `W` hold `⊥`, here free values (log 1); `PB` and `DIGEST` hold `⊥`;
everything else the spec names is 0. The parameters `MSG`, `PB_CAP` and the ports are the host's (logs 4, 5, 6). -/
def State.reset : State where
  h := Config.undefWords 0 0 8
  v := Config.undefWords 0 8 8
  w := Config.undefWords 0 16 64
  pb := []
  plen := 0
  nblk := 0
  pbv := false
  digest := none
  len := 0
  mv := false
  blk := 0
  upc := 0
  busy := false
  done := false
  dvalid := false
  err := 0
  msg := []
  capExtra := Config.extraBlocks
  inputs := []
  draws := 0

end Sys2Proof.Machine
end

