-- ==== Sys2Proof/Machine/Operands.lean ====
section
/-! DEFINITION. Every operand form of the core: the index `T` of a word (30_encoding.md R73), the offset `WLD` forms from it
(42_scheduler.md R131), and the lengths and offsets of the Padder (40_word_ops.md R104, 41_padder.md R113, R115). All
arithmetic on lengths and offsets is exact (00_scope.md R15). -/

namespace Sys2Proof.Machine

/-- `T` as the index of a schedule word or of a round (30_encoding.md R73, 43_compressor.md R148). -/
def index (t : BitVec 6) : Fin 64 := t.toFin

/-- The index `t - k` of a source word of `WEX t` (42_scheduler.md R132); `k` is at most 16 and `t` at least 16. -/
def indexBack (t : BitVec 6) (k : Nat) : Fin 64 := ⟨t.toNat - k, by have := t.isLt; omega⟩

/-- The offset in `PB` of the word `WLD t` loads: `64 * BLK + 4 * t` (42_scheduler.md R131). -/
def wldOffset (blk : Len) (t : BitVec 6) : Nat := 64 * blk.toNat + 4 * t.toNat

/-- `z = (55 - LEN) mod 64`, the number of zero bytes of the padding (41_padder.md R113), in the form
`63 - ((LEN + 8) mod 64)` that 40_word_ops.md R104 gives as equal to it. -/
def padZeros (len : Nat) : Nat := 63 - (len + 8) % 64

/-- `LEN + 1 + z + 8`, the padded length (41_padder.md R113). -/
def padLength (len : Nat) : Nat := len + 1 + padZeros len + 8

/-- `L = 8 * LEN`, the bit length, a 64-bit number when `LEN < 2^61` (40_word_ops.md R104). -/
def bitLength (len : Nat) : BitVec 64 := BitVec.ofNat 64 (8 * len)

/-- The offsets that `PAD` puts on the port `msg_addr`, in order: `0` to `LEN - 1`, each once (41_padder.md R115). -/
def msgAddrs (len : Nat) : List Nat := List.range len

end Sys2Proof.Machine
end

