-- ==== Sys2Proof/Machine/Flags.lean ====
section
/-! DEFINITION. Every flag event of the core: the status flags `BUSY`, `DONE`, `DVALID` (10_state.md R31), the error register
(R32, 60_exceptions.md R190) and the valid bit of the buffer. There is no arithmetic flag and no micro-operation sets a
flag from a result (R33). -/

namespace Sys2Proof.Machine

/-- The three error kinds (60_exceptions.md R190). -/
inductive ErrorKind where
  /-- The input reference is missing, `MV = 0`; raised by `CHK`. -/
  | nullInput
  /-- The buffer could not be obtained, `PLEN > PB_CAP`; raised by `PAD`. -/
  | allocationFailure
  /-- The bit length would overflow its 64 bits, `LEN >= 2^61`; raised by `PAD`. -/
  | inputTooLarge
  deriving DecidableEq, Repr

/-- The code of an error kind in `ERR` (60_exceptions.md R190). -/
def errCode : ErrorKind → BitVec 2
  | .nullInput => 1
  | .allocationFailure => 2
  | .inputTooLarge => 3

/-- The flags of a run that begins: `BUSY` set, `DONE`, `DVALID` and `ERR` cleared (10_state.md R31, R32). -/
def flagsStart (s : State) : State := { s with busy := true, done := false, dvalid := false, err := 0 }

/-- The flags of a run that ends well: `DVALID` and `DONE` set, `BUSY` cleared (44_engine.md R165). -/
def flagsEnd (s : State) : State := { s with busy := false, done := true, dvalid := true }

/-- The flags of a run that ends with an error: its code in `ERR`, `DONE` set, `DVALID` and `BUSY` cleared
(60_exceptions.md R196). -/
def flagsError (e : ErrorKind) (s : State) : State :=
  { s with busy := false, done := true, dvalid := false, err := errCode e }

end Sys2Proof.Machine
end

