-- ==== Sys2Proof/Machine/WordOps.lean ====
section
/-! DEFINITION. The pure functions on words and bytes (40_word_ops.md). `add32` is `+` of `Word` (R91); and, exclusive or and
complement are `&&&`, `^^^` and `~~~` of `Word` (R92). -/

namespace Sys2Proof.Machine

/-- `rotr(x, n)` by the formula of 40_word_ops.md R93, for `0 < n < 32`. Other amounts have no meaning in the spec (U7) and
are never asked for (log 12). -/
def rotr (x : Word) (n : Nat) : Word := (x >>> n) ||| (x <<< (32 - n))

/-- `shr(x, n)`, the logical right shift (40_word_ops.md R94), for `0 < n < 32` (log 12). -/
def shr (x : Word) (n : Nat) : Word := x >>> n

/-- `σ0`, used by `WEX` on `W[t-15]` (40_word_ops.md R95). -/
def smallSigma0 (x : Word) : Word := rotr x 7 ^^^ rotr x 18 ^^^ shr x 3

/-- `σ1`, used by `WEX` on `W[t-2]` (40_word_ops.md R96). -/
def smallSigma1 (x : Word) : Word := rotr x 17 ^^^ rotr x 19 ^^^ shr x 10

/-- `Σ0`, used by `RND` on `a` (40_word_ops.md R97). -/
def bigSigma0 (x : Word) : Word := rotr x 2 ^^^ rotr x 13 ^^^ rotr x 22

/-- `Σ1`, used by `RND` on `e` (40_word_ops.md R98). -/
def bigSigma1 (x : Word) : Word := rotr x 6 ^^^ rotr x 11 ^^^ rotr x 25

/-- `Ch`, used by `RND` on `(e, f, g)` (40_word_ops.md R99). -/
def ch (x y z : Word) : Word := (x &&& y) ^^^ (~~~x &&& z)

/-- `Maj`, used by `RND` on `(a, b, c)` (40_word_ops.md R100). -/
def maj (x y z : Word) : Word := (x &&& y) ^^^ (x &&& z) ^^^ (y &&& z)

/-- `be32`: four bytes in offset order as a big-endian word, `b0 * 2^24 + b1 * 2^16 + b2 * 2^8 + b3` (40_word_ops.md R101). -/
def be32 (b0 b1 b2 b3 : Byte) : Word :=
  BitVec.ofNat 32 (b0.toNat * 2 ^ 24 + b1.toNat * 2 ^ 16 + b2.toNat * 2 ^ 8 + b3.toNat)

/-- `bytes32`: a word as four big-endian bytes (40_word_ops.md R102). -/
def bytes32 (x : Word) : List Byte :=
  [x.extractLsb' 24 8, x.extractLsb' 16 8, x.extractLsb' 8 8, x.extractLsb' 0 8]

/-- `bytes64`: a 64-bit number as eight big-endian bytes (40_word_ops.md R103). -/
def bytes64 (l : BitVec 64) : List Byte :=
  [l.extractLsb' 56 8, l.extractLsb' 48 8, l.extractLsb' 40 8, l.extractLsb' 32 8,
   l.extractLsb' 24 8, l.extractLsb' 16 8, l.extractLsb' 8 8, l.extractLsb' 0 8]

/-- The eight words of a register file as 32 big-endian bytes, word 0 first (20_memory.md R55). -/
def bytesOfWords (x : Vector Word 8) : Vector Byte 32 :=
  ⟨⟨bytes32 x[0] ++ bytes32 x[1] ++ bytes32 x[2] ++ bytes32 x[3] ++ bytes32 x[4] ++ bytes32 x[5] ++ bytes32 x[6]
    ++ bytes32 x[7]⟩, rfl⟩

end Sys2Proof.Machine
end

