-- ==== Sys2Proof/Machine/Ops.lean ====
section
/-! DEFINITION. The named operations over memory and registers, and the shared operations of the sequencer: advancing,
releasing the buffer, raising an error (60_exceptions.md R196), accepting `START` (44_engine.md R161) and reset
(70_reset_and_hazards.md R210). There is no return from an error: `START` or reset acknowledges it (60_exceptions.md R199). -/

namespace Sys2Proof.Machine

/-- What an unlisted offset of `PB` reads as: no value, the spec's `⊥` (10_state.md R26, R35). -/
def pbUnlisted : Option Byte := none

/-- What an unlisted offset of a message reads as: `0x00`. Every message of every length is expressible (log 5). -/
def msgUnlisted : Byte := 0

/-- The byte listed at an offset, if there is one. -/
def Memory.lookup : Memory → Nat → Option Byte
  | [], _ => none
  | (k, b) :: m, a => if a = k then some b else Memory.lookup m a

/-- Lists a byte at an offset, in the place the rising order gives it, in place of what was listed there. -/
def Memory.insert : Memory → Nat → Byte → Memory
  | [], a, b => [(a, b)]
  | (k, c) :: m, a, b =>
    if a < k then (a, b) :: (k, c) :: m
    else if a = k then (a, b) :: m
    else (k, c) :: Memory.insert m a b

/-- Takes an offset off the list. -/
def Memory.erase : Memory → Nat → Memory
  | [], _ => []
  | (k, c) :: m, a => if a = k then m else (k, c) :: Memory.erase m a

/-- Writes a byte; a byte that an unlisted offset reads as anyway is taken off the list. -/
def Memory.write (unlisted : Option Byte) (m : Memory) (a : Nat) (b : Byte) : Memory :=
  if unlisted = some b then Memory.erase m a else Memory.insert m a b

/-- The first offset of a memory, if any, lies above `lo`, and the others rise from it. -/
def Memory.rising : Option Nat → Memory → Bool
  | _, [] => true
  | none, (k, _) :: m => Memory.rising (some k) m
  | some lo, (k, _) :: m => lo < k && Memory.rising (some k) m

/-- The canonical form: offsets strictly rising, and no entry equal to what an unlisted offset reads as. -/
def Memory.wf (unlisted : Option Byte) (m : Memory) : Bool :=
  Memory.rising none m && m.all fun c => unlisted ≠ some c.2

/-- Writes bytes at consecutive offsets of `PB` from `a` on, in order (`MemWrite(PB, a, n, v)` of 00_scope.md R15, given
the bytes of `v` in big-endian order). -/
def Memory.writeBytes : Memory → Nat → List Byte → Memory
  | m, _, [] => m
  | m, a, b :: bs => Memory.writeBytes (Memory.write pbUnlisted m a b) (a + 1) bs

/-- The memory that holds the bytes `bs` of a message at the offsets from 0 on. -/
def Memory.ofMessage (bs : List Byte) : Memory :=
  (bs.zipIdx).foldl (fun m c => Memory.write (some msgUnlisted) m c.2 c.1) []

/-- The byte `MSG[i]` (10_state.md R25): a message byte can always be read (20_memory.md R51). -/
def msgByte (s : State) (i : Nat) : Byte := (Memory.lookup s.msg i).getD msgUnlisted

/-- The byte `PB[a]`; where it holds `⊥` (00_scope.md R18) a free value, marked in log 2. -/
def pbByte (s : State) (a : Nat) : Byte :=
  match Memory.lookup s.pb a with
  | some b => b
  | none => pbUnlisted.getD (Config.undefByte s.draws a)

/-- `MemRead(PB, a, 4)`: the big-endian word at offset `a` (20_memory.md R53). -/
def pbWord (s : State) (a : Nat) : Word := be32 (pbByte s a) (pbByte s (a + 1)) (pbByte s (a + 2)) (pbByte s (a + 3))

/-- The four bytes from offset `a` on lie in the `PB_CAP` bytes of the memory behind `PB` (10_state.md R26). -/
def pbInside (s : State) (a : Nat) : Bool := a + 3 < s.pbCap

/-- Reads schedule word `i`. -/
def readW (s : State) (i : Fin 64) : Word := s.w[i]

/-- Writes schedule word `i`. -/
def writeW (i : Fin 64) (x : Word) (s : State) : State := { s with w := s.w.set i x }

/-- Writes the hash state. -/
def writeH (x : Vector Word 8) (s : State) : State := { s with h := x }

/-- Writes the working registers. -/
def writeV (x : Vector Word 8) (s : State) : State := { s with v := x }

/-- Writes the digest register. -/
def writeDigest (x : Vector Byte 32) (s : State) : State := { s with digest := some x }

/-- `UPC <- UPC + 1`, the default advance (44_engine.md R167). -/
def advance (s : State) : State := { s with upc := s.upc + 1 }

/-- `UPC <- slot`. -/
def jump (slot : BitVec 8) (s : State) : State := { s with upc := slot }

/-- `BLK <- b`. -/
def writeBlk (b : Len) (s : State) : State := { s with blk := b }

/-- The padded buffer stops having a value: `PBV <- 0 ; PLEN <- 0 ; NBLK <- 0 ; PB <- ⊥` (44_engine.md R165,
60_exceptions.md R196). Later reads of `PB` draw anew (log 2). -/
def release (s : State) : State :=
  { s with pbv := false, plen := 0, nblk := 0, pb := [], draws := s.draws + 1 }

/-- `DIGEST <- ⊥` (44_engine.md R161, 60_exceptions.md R196). -/
def clearDigest (s : State) : State := { s with digest := none }

/-- TAKING AN ERROR: `raise E` (60_exceptions.md R196). Nothing is saved, there is no handler; the run is over. -/
def raise (e : ErrorKind) (s : State) : State := jump 0 (flagsError e (clearDigest (release s)))

/-- `START`, accepted (44_engine.md R161): the operands are latched, the counters and flags set, `DIGEST` becomes `⊥`. The
message becomes the parameter of the run (10_state.md R25). -/
def acceptStart (p : PortIn) (s : State) : State :=
  jump 0 (writeBlk 0 (flagsStart (clearDigest { s with len := p.len, mv := p.msgValid, msg := p.msg })))

/-- The core while `rst = 1` (70_reset_and_hazards.md R210, R211): every register takes its value of 10_state.md R37, the
`⊥` registers drawn anew (log 1). What is the host's stays: the message, the capacity, the samples still to come. -/
def applyReset (s : State) : State :=
  { State.reset with
    h := Config.undefWords (s.draws + 1) 0 8
    v := Config.undefWords (s.draws + 1) 8 8
    w := Config.undefWords (s.draws + 1) 16 64
    msg := s.msg
    capExtra := s.capExtra
    inputs := s.inputs
    draws := s.draws + 1 }

end Sys2Proof.Machine
end

