-- ==== Sys2Proof/Syntax.lean ====
section
/-! DEFINITION. The ten micro-operations (30_encoding.md R72), one constructor per row of the opcode table. The only operand
is the index `T` of the word, 6 bits, as it stands (R71, R73). -/

namespace Sys2Proof

/-- A micro-operation of the sequencer (30_encoding.md R72). -/
inductive Instr where
  /-- `CHK`: check that there is a message (44_engine.md R162). -/
  | chk
  /-- `INIT`: load the initial hash state (44_engine.md R163). -/
  | init
  /-- `PAD`: build the padded buffer (41_padder.md R111). -/
  | pad
  /-- `WLD t`: load schedule word `t`, 0 to 15, from the block (42_scheduler.md R131). -/
  | wld (t : BitVec 6)
  /-- `WEX t`: derive schedule word `t`, 16 to 63 (42_scheduler.md R132). -/
  | wex (t : BitVec 6)
  /-- `VLD`: load the working registers (43_compressor.md R141). -/
  | vld
  /-- `RND t`: round `t`, 0 to 63 (43_compressor.md R142). -/
  | rnd (t : BitVec 6)
  /-- `HADD`: add the working registers into the hash state, and the block loop (43_compressor.md R143). -/
  | hadd
  /-- `SER`: serialise the hash state into the digest register (44_engine.md R164). -/
  | ser
  /-- `REL`: release the padded buffer and end the run (44_engine.md R165). -/
  | rel
  deriving DecidableEq, Repr

end Sys2Proof
end

