-- ==== Sys2Proof/WellFormed.lean ====
section
/-! DEFINITION. The operand ranges of 30_encoding.md R72: a micro-operation term is well formed when it has a legal word. -/

namespace Sys2Proof

/-- The ranges of `T` in 30_encoding.md R72: `WLD` takes 0 to 15, `WEX` 16 to 63, `RND` 0 to 63 (all six bits). -/
def Instr.wf : Instr → Bool
  | .wld t => t.toNat ≤ 15
  | .wex t => 16 ≤ t.toNat
  | .chk | .init | .pad | .vld | .rnd _ | .hadd | .ser | .rel => true

end Sys2Proof
end

