-- ==== Sys2Proof/Decode.lean ====
section
/-! DEFINITION. Decoding a micro-operation word (30_encoding.md R70 to R74, R76), total on all 4096 words, and the encoder
written from the same table. A reserved word is rejected by the name of the field that makes it reserved (R74, U4). -/

namespace Sys2Proof

/-- Why a word is reserved (30_encoding.md R74), in the order in which 95_test_vectors.md V42 names the reasons. -/
inductive DecodeError where
  /-- `Z` is not 0. -/
  | reservedZ
  /-- `OP` is `0x0` or `0xB` to `0xF`. -/
  | reservedOp
  /-- `T` is outside the range of the operation. -/
  | reservedT
  deriving DecidableEq, Repr

/-- `OP = U[11:8]` (30_encoding.md R71). -/
def fieldOp (u : MicroWord) : BitVec 4 := u.extractLsb' 8 4

/-- `Z = U[7:6]`, which must be 0 (30_encoding.md R71). -/
def fieldZ (u : MicroWord) : BitVec 2 := u.extractLsb' 6 2

/-- `T = U[5:0]`, an unsigned index (30_encoding.md R71). -/
def fieldT (u : MicroWord) : BitVec 6 := u.extractLsb' 0 6

/-- An operation that takes no index: its `T` must be 0 (30_encoding.md R72). -/
def noIndex (t : BitVec 6) (i : Instr) : Except DecodeError Instr :=
  if t = 0#6 then .ok i else .error .reservedT

/-- An operation whose `T` has a range: the term is kept when it is well formed (30_encoding.md R72). -/
def ranged (i : Instr) : Except DecodeError Instr :=
  if i.wf then .ok i else .error .reservedT

/-- The row of the opcode map (30_encoding.md R72) that `OP` selects, applied to `T`. -/
def decodeOp (op : Nat) (t : BitVec 6) : Except DecodeError Instr :=
  match op with
  | 0x1 => noIndex t .chk
  | 0x2 => noIndex t .init
  | 0x3 => noIndex t .pad
  | 0x4 => ranged (.wld t)
  | 0x5 => ranged (.wex t)
  | 0x6 => noIndex t .vld
  | 0x7 => ranged (.rnd t)
  | 0x8 => noIndex t .hadd
  | 0x9 => noIndex t .ser
  | 0xA => noIndex t .rel
  | _ => .error .reservedOp

/-- The decoder (30_encoding.md R71, R72, R74): the micro-operation of a legal word, or why the word is reserved. -/
def decode (u : MicroWord) : Except DecodeError Instr :=
  if fieldZ u = 0#2 then decodeOp (fieldOp u).toNat (fieldT u) else .error .reservedZ

/-- The word with the given `OP` and `T`, and `Z = 0` (30_encoding.md R71): `OP` from bit 8 on, `T` from bit 0 on. -/
def microWord (op : BitVec 4) (t : BitVec 6) : MicroWord := BitVec.ofNat 12 (op.toNat * 2 ^ 8 + t.toNat)

/-- The encoder: the word of 30_encoding.md R72. -/
def encode : Instr → MicroWord
  | .chk => microWord 0x1#4 0#6
  | .init => microWord 0x2#4 0#6
  | .pad => microWord 0x3#4 0#6
  | .wld t => microWord 0x4#4 t
  | .wex t => microWord 0x5#4 t
  | .vld => microWord 0x6#4 0#6
  | .rnd t => microWord 0x7#4 t
  | .hadd => microWord 0x8#4 0#6
  | .ser => microWord 0x9#4 0#6
  | .rel => microWord 0xA#4 0#6

/-- What the decoder reads from a word given as the opcode table numbers its bits: bit 0 the least significant. The table's
rows have 12 bits; whole bytes make 16, and the four bits above the 12 must then be 0, since a slot of the ROM holds a
12-bit word and no more (30_encoding.md R70). -/
def decodeTableWord (nbits w : Nat) : Option Instr :=
  let u := w % 2 ^ nbits
  if u < 2 ^ 12 then
    match decode (BitVec.ofNat 12 u) with
    | .ok i => some i
    | .error _ => none
  else none

end Sys2Proof
end

