-- ==== Sys2Proof/Machine/Tables.lean ====
section
/-! DEFINITION. The constant content of the core (10_state.md R36): the ROMs `IV` (R23) and `K` (R24) and the micro-program
ROM (30_encoding.md R75). The values of `IV` and `K` stand in the spec, which took them from FIPS 180-4 (log 13). -/

namespace Sys2Proof.Machine

/-- `IV[0..7]`, the initial hash values (10_state.md R23). -/
def iv : Vector Word 8 :=
  #v[0x6a09e667#32, 0xbb67ae85#32, 0x3c6ef372#32, 0xa54ff53a#32, 0x510e527f#32, 0x9b05688c#32, 0x1f83d9ab#32, 0x5be0cd19#32]

/-- `K[0]` to `K[15]` (10_state.md R24). -/
def kPart0 : List Word :=
  [0x428a2f98#32, 0x71374491#32, 0xb5c0fbcf#32, 0xe9b5dba5#32,
   0x3956c25b#32, 0x59f111f1#32, 0x923f82a4#32, 0xab1c5ed5#32,
   0xd807aa98#32, 0x12835b01#32, 0x243185be#32, 0x550c7dc3#32,
   0x72be5d74#32, 0x80deb1fe#32, 0x9bdc06a7#32, 0xc19bf174#32]

/-- `K[16]` to `K[31]` (10_state.md R24). -/
def kPart1 : List Word :=
  [0xe49b69c1#32, 0xefbe4786#32, 0x0fc19dc6#32, 0x240ca1cc#32,
   0x2de92c6f#32, 0x4a7484aa#32, 0x5cb0a9dc#32, 0x76f988da#32,
   0x983e5152#32, 0xa831c66d#32, 0xb00327c8#32, 0xbf597fc7#32,
   0xc6e00bf3#32, 0xd5a79147#32, 0x06ca6351#32, 0x14292967#32]

/-- `K[32]` to `K[47]` (10_state.md R24). -/
def kPart2 : List Word :=
  [0x27b70a85#32, 0x2e1b2138#32, 0x4d2c6dfc#32, 0x53380d13#32,
   0x650a7354#32, 0x766a0abb#32, 0x81c2c92e#32, 0x92722c85#32,
   0xa2bfe8a1#32, 0xa81a664b#32, 0xc24b8b70#32, 0xc76c51a3#32,
   0xd192e819#32, 0xd6990624#32, 0xf40e3585#32, 0x106aa070#32]

/-- `K[48]` to `K[63]` (10_state.md R24). -/
def kPart3 : List Word :=
  [0x19a4c116#32, 0x1e376c08#32, 0x2748774c#32, 0x34b0bcb5#32,
   0x391c0cb3#32, 0x4ed8aa4a#32, 0x5b9cca4f#32, 0x682e6ff3#32,
   0x748f82ee#32, 0x78a5636f#32, 0x84c87814#32, 0x8cc70208#32,
   0x90befffa#32, 0xa4506ceb#32, 0xbef9a3f7#32, 0xc67178f2#32]

/-- `K[0..63]`, the round constants (10_state.md R24). -/
def kTable : Vector Word 64 := ⟨⟨kPart0 ++ kPart1 ++ kPart2 ++ kPart3⟩, rfl⟩

/-- The micro-program ROM (30_encoding.md R75): the word in slot `s`, and nothing from slot 135 on. -/
def romWord (s : Nat) : Option MicroWord :=
  if s = 0 then some 0x100#12
  else if s = 1 then some 0x200#12
  else if s = 2 then some 0x300#12
  else if s ≤ 18 then some (0x400#12 + BitVec.ofNat 12 (s - 3))
  else if s ≤ 66 then some (0x500#12 + BitVec.ofNat 12 (s - 3))
  else if s = 67 then some 0x600#12
  else if s ≤ 131 then some (0x700#12 + BitVec.ofNat 12 (s - 68))
  else if s = 132 then some 0x800#12
  else if s = 133 then some 0x900#12
  else if s = 134 then some 0xA00#12
  else none

/-- The slot that holds a micro-operation: every legal word occurs in exactly one (30_encoding.md R75). -/
def romSlot : Instr → Nat
  | .chk => 0
  | .init => 1
  | .pad => 2
  | .wld t => 3 + t.toNat
  | .wex t => 3 + t.toNat
  | .vld => 67
  | .rnd t => 68 + t.toNat
  | .hadd => 132
  | .ser => 133
  | .rel => 134

/-- The first slot of the body that runs once per block, the target of the block loop (30_encoding.md R75, 44_engine.md R168). -/
def slotBlock : BitVec 8 := 3

/-- The slot of `SER`, where the block loop leaves to (30_encoding.md R75, 44_engine.md R168). -/
def slotSer : BitVec 8 := 133

end Sys2Proof.Machine
end

