-- ==== Sys2Proof/Machine/Compressor.lean ====
section
/-! DEFINITION. The Compressor: `VLD`, `RND` and `HADD` (43_compressor.md). -/

namespace Sys2Proof.Machine

/-- `T1 = h + Σ1(e) + Ch(e,f,g) + k + w` (43_compressor.md R144); a value inside one round, not state (R149). -/
def roundT1 (v : Vector Word 8) (k w : Word) : Word := v[7] + bigSigma1 v[4] + ch v[4] v[5] v[6] + k + w

/-- `T2 = Σ0(a) + Maj(a,b,c)` (43_compressor.md R144). -/
def roundT2 (v : Vector Word 8) : Word := bigSigma0 v[0] + maj v[0] v[1] v[2]

/-- `round(v, k, w)`: the eight assignments at once, all read from the old registers (43_compressor.md R144, R147). -/
def round (v : Vector Word 8) (k w : Word) : Vector Word 8 :=
  #v[roundT1 v k w + roundT2 v, v[0], v[1], v[2], v[3] + roundT1 v k w, v[4], v[5], v[6]]

/-- Word by word addition modulo `2^32`, with no carry from one word to the next (43_compressor.md R143). -/
def addWords (x y : Vector Word 8) : Vector Word 8 :=
  #v[x[0] + y[0], x[1] + y[1], x[2] + y[2], x[3] + y[3], x[4] + y[4], x[5] + y[5], x[6] + y[6], x[7] + y[7]]

/-- `VLD` (43_compressor.md R141). -/
def execVld (s : State) : Result := .next (advance (writeV s.h s))

/-- `RND t` (43_compressor.md R142): `V <- round(V, K[t], W[t])`, the same index for both (R148). -/
def execRnd (t : BitVec 6) (s : State) : Result :=
  .next (advance (writeV (round s.v kTable[index t] (readW s (index t))) s))

/-- The block loop, the only branch of the machine (44_engine.md R168). The comparison is exact. -/
def blockLoop (s : State) : State :=
  if s.blk.toNat + 1 < s.nblk.toNat then jump slotBlock (writeBlk (s.blk + 1) s) else jump slotSer s

/-- `HADD` (43_compressor.md R143), then the block loop (44_engine.md R168). -/
def execHadd (s : State) : Result := .next (blockLoop (writeH (addWords s.h s.v) s))

end Sys2Proof.Machine
end

