-- ==== Sys2Proof/Machine/Engine.lean ====
section
/-! DEFINITION. The Hash Engine: `CHK`, `INIT`, `SER` and `REL` (44_engine.md). -/

namespace Sys2Proof.Machine

/-- `CHK` (44_engine.md R162): `NullInput` when there is no message; an empty message is a message. -/
def execChk (s : State) : Result := if s.mv then .next (advance s) else .next (raise .nullInput s)

/-- `INIT` (44_engine.md R163). -/
def execInit (s : State) : Result := .next (advance (writeH iv s))

/-- `SER` (44_engine.md R164): `DIGEST` takes `H` in big-endian bytes; `DVALID` stays. -/
def execSer (s : State) : Result := .next (advance (writeDigest (bytesOfWords s.h) s))

/-- `REL` (44_engine.md R165, R169): the buffer is released and the run ends well. -/
def execRel (s : State) : Result := .next (jump 0 (flagsEnd (release s)))

end Sys2Proof.Machine
end

