-- ==== Sys2Proof/Machine/Padder.lean ====
section
/-! DEFINITION. The Padder: `PAD` (41_padder.md). -/

namespace Sys2Proof.Machine

/-- The two tests of `PAD`, in their order and before its first read or write: the length check (41_padder.md R112), then the
capacity check (R114). -/
def padError (s : State) : Option ErrorKind :=
  if 2 ^ 61 ≤ s.len.toNat then some .inputTooLarge
  else if s.pbCap < padLength s.len.toNat then some .allocationFailure
  else none

/-- The offsets of `MSG` that `PAD` reads, in order: all of them once each (41_padder.md R115), none when it raises
(60_exceptions.md R192, R193). -/
def padReads (s : State) : List Nat :=
  match padError s with
  | some _ => []
  | none => msgAddrs s.len.toNat

/-- The message bytes, read once each through the message port in offset order (41_padder.md R115). -/
def messageBytes (s : State) : List Byte := (msgAddrs s.len.toNat).map (msgByte s)

/-- The four writes of `PAD` to `PB`: the copy (41_padder.md R115), the marker (R116), the zero fill (R117) and the length
field (R118). -/
def fillBuffer (s : State) : Memory :=
  let n := s.len.toNat
  let copied := Memory.writeBytes s.pb 0 (messageBytes s)
  let marked := Memory.writeBytes copied n [0x80#8]
  let filled := Memory.writeBytes marked (n + 1) (List.replicate (padZeros n) 0x00#8)
  Memory.writeBytes filled (padLength n - 8) (bytes64 (bitLength n))

/-- `PLEN <- plen ; NBLK <- plen / 64 ; PBV <- 1`, with the filled buffer (41_padder.md R119). -/
def commitBuffer (m : Memory) (plen : Nat) (s : State) : State :=
  { s with pb := m, plen := BitVec.ofNat 64 plen, nblk := BitVec.ofNat 64 (plen / 64), pbv := true }

/-- `PAD` (41_padder.md R111): the two tests, then the buffer. -/
def execPad (s : State) : Result :=
  match padError s with
  | some e => .next (raise e s)
  | none => .next (advance (commitBuffer (fillBuffer s) (padLength s.len.toNat) s))

end Sys2Proof.Machine
end

