-- ==== Sys2Proof/Machine/Scheduler.lean ====
section
/-! DEFINITION. The Message Scheduler: `WLD` and `WEX` (42_scheduler.md). -/

namespace Sys2Proof.Machine

/-- `WLD t` (42_scheduler.md R131). There is no word for `t` above 15 (30_encoding.md R74). A byte that holds `⊥` is read as
a free value (log 2); a byte outside the `PB_CAP` bytes does not exist (log 10). -/
def execWld (t : BitVec 6) (s : State) : Result :=
  if t.toNat ≤ 15 then
    if pbInside s (wldOffset s.blk t) then .next (advance (writeW (index t) (pbWord s (wldOffset s.blk t)) s))
    else .fault .pbOutside
  else .refused .reservedWord

/-- `σ1(W[t-2]) + W[t-7] + σ0(W[t-15]) + W[t-16]` (42_scheduler.md R132). -/
def wexWord (t : BitVec 6) (s : State) : Word :=
  smallSigma1 (readW s (indexBack t 2)) + readW s (indexBack t 7) + smallSigma0 (readW s (indexBack t 15))
    + readW s (indexBack t 16)

/-- `WEX t` (42_scheduler.md R132). There is no word for `t` below 16 (30_encoding.md R74). -/
def execWex (t : BitVec 6) (s : State) : Result :=
  if 16 ≤ t.toNat then .next (advance (writeW (index t) (wexWord t s) s))
  else .refused .reservedWord

end Sys2Proof.Machine
end

