-- ==== Sys2Proof/Machine/Dispatch.lean ====
section
/-! DEFINITION. Every micro-operation to its meaning (30_encoding.md R72, R76). -/

namespace Sys2Proof.Machine

def exec (i : Instr) (s : State) : Host.Outcome State Fault Refusal :=
  match i with
  | .chk => Sys2Proof.Machine.execChk s
  | .init => Sys2Proof.Machine.execInit s
  | .pad => Sys2Proof.Machine.execPad s
  | .wld t => Sys2Proof.Machine.execWld t s
  | .wex t => Sys2Proof.Machine.execWex t s
  | .vld => Sys2Proof.Machine.execVld s
  | .rnd t => Sys2Proof.Machine.execRnd t s
  | .hadd => Sys2Proof.Machine.execHadd s
  | .ser => Sys2Proof.Machine.execSer s
  | .rel => Sys2Proof.Machine.execRel s

end Sys2Proof.Machine
end

