-- ==== Sys2Proof/Machine/Ports.lean ====
section
/-! DEFINITION. The ports (10_state.md R34, R35): what the host sees of a state, and the sample of the input ports that the
next step reads (log 6). The port `msg_addr` moves inside a step: see `portMsgAddrs` in Sequencer.lean. -/

namespace Sys2Proof.Machine

/-- The sample of the input ports that the next step reads; none left, the ports are at rest. -/
def portSample (s : State) : PortIn := s.inputs.headD PortIn.rest

/-- The state once the step has read that sample. -/
def takeSample (s : State) : State := { s with inputs := s.inputs.tail }

/-- The port `busy`. -/
def portBusy (s : State) : Bool := s.busy

/-- The port `done`. -/
def portDone (s : State) : Bool := s.done

/-- The port `err`. -/
def portErr (s : State) : BitVec 2 := s.err

/-- The port `digest_valid`. -/
def portDigestValid (s : State) : Bool := s.dvalid

/-- 32 bytes on 256 wires, byte 0 on bits 255 to 248 (10_state.md R34). -/
def packBytes (d : Vector Byte 32) : BitVec 256 :=
  d.toList.foldl (fun acc b => (acc <<< 8) ||| b.zeroExtend 256) 0

/-- The port `digest`: the digest while `DVALID = 1`, otherwise no value, neither zero nor the last digest (10_state.md R35,
93_implementation_defined.md U3). -/
def portDigest (s : State) : Option (BitVec 256) := if s.dvalid then s.digest.map packBytes else none

end Sys2Proof.Machine
end

