-- ==== Sys2Proof/Machine/Sequencer.lean ====
section
/-! DEFINITION. Fetch and decode (30_encoding.md R76, 44_engine.md R166) and the choice of what a step is: a reset, an
accepted `START`, a micro-operation, or nothing. -/

namespace Sys2Proof.Machine

/-- `U = ROM[UPC]` (30_encoding.md R76); nothing where the ROM has no slot. -/
def fetch (s : State) : Option MicroWord := romWord s.upc.toNat

/-- One step of the sequencer (44_engine.md R166): fetch, decode, perform. A reserved word is refused (30_encoding.md R74). -/
def sequencerStep (s : State) : Result :=
  match fetch s with
  | none => .fault .noSlot
  | some u =>
    match decode u with
    | .error _ => .refused .reservedWord
    | .ok i => exec i s

/-- The values the port `msg_addr` takes during the next step, in order (10_state.md R34); `msg_data` answers each with
`msgByte`. Only a step that performs `PAD` asks for bytes, and only when `PAD` does not raise (20_memory.md R51,
60_exceptions.md R192, R193). The step makes them all at once (log 16). -/
def portMsgAddrs (s : State) : List (BitVec 64) :=
  if (portSample s).rst = false ∧ s.busy = true ∧ fetch s = some (encode .pad) then (padReads s).map (BitVec.ofNat 64)
  else []

/-- What a step does with the sample `p` of the ports, in the state `s` that has read it: `rst` wins over everything
(70_reset_and_hazards.md R210, R211); while `BUSY = 1` the sequencer steps and `start` is ignored (44_engine.md R166, R174);
while `BUSY = 0` a `start` is accepted (R161), and without one the core keeps its state (60_exceptions.md R207). -/
def stepWith (p : PortIn) (s : State) : Result :=
  if p.rst then .next (applyReset s)
  else if s.busy then sequencerStep s
  else if p.start then .next (acceptStart p s)
  else .next s

/-- The slot that holds the micro-operation read from a table word; a word that is not legal is in no slot, and the fetch
then finds none. -/
def slotOfTableWord (nbits w : Nat) : BitVec 8 :=
  match decodeTableWord nbits w with
  | some i => BitVec.ofNat 8 (romSlot i)
  | none => 255

end Sys2Proof.Machine
end

