-- ==== Sys2Proof/Machine/Step.lean ====
section
/-! DEFINITION. One step of the machine, and where a step finds its micro-operation. -/

namespace Sys2Proof.Machine

/-- One step: it reads one sample of the ports and does what `stepWith` says (log 6). -/
def step (s : State) : Host.Outcome State Fault Refusal := stepWith (portSample s) (takeSample s)

/-- `s` made to run the given micro-operation at its next step. The ROM is fixed and every legal word stands in exactly one
slot (30_encoding.md R75), so the micro-operation is selected by its slot; the sequencer steps only while `BUSY = 1`
(44_engine.md R166), and the ports are at rest (log 8). -/
def State.withFetchWord (s : State) (nbits w : Nat) : State :=
  { s with busy := true, upc := slotOfTableWord nbits w, inputs := [] }

end Sys2Proof.Machine
end

