-- ==== Sys2Proof/Machine/Function.lean ====
section
/-! DEFINITION. The functions the units and the whole core compute, as the spec states them beside the micro-operations:
`pad` (41_padder.md R110), `expand` (42_scheduler.md R130), `compress` (43_compressor.md R140) and `digest` (44_engine.md R160).
No step calls them: they are what statements compare the machine with. -/

namespace Sys2Proof.Machine

/-- `pad(M) = M ‖ 0x80 ‖ 0x00 * z ‖ bytes64(8n)` (41_padder.md R110). -/
def pad (m : List Byte) : List Byte :=
  m ++ [0x80#8] ++ List.replicate (padZeros m.length) 0x00#8 ++ bytes64 (bitLength m.length)

/-- Block `b` of a padded message, `P[64b .. 64b+63]` (20_memory.md R60). -/
def block (p : List Byte) (b : Nat) : List Byte := (p.drop (64 * b)).take 64

/-- Word `t` of a block: `be32(B[4t], B[4t+1], B[4t+2], B[4t+3])` (42_scheduler.md R130). -/
def blockWord (b : List Byte) (t : Nat) : Word :=
  be32 (b.getD (4 * t) 0) (b.getD (4 * t + 1) 0) (b.getD (4 * t + 2) 0) (b.getD (4 * t + 3) 0)

/-- `σ1(w[t-2]) + w[t-7] + σ0(w[t-15]) + w[t-16]` for the next index `t` of a list of 16 words or more (42_scheduler.md R130). -/
def nextWord (w : List Word) : Word :=
  smallSigma1 (w.getD (w.length - 2) 0) + w.getD (w.length - 7) 0 + smallSigma0 (w.getD (w.length - 15) 0)
    + w.getD (w.length - 16) 0

/-- Appends `n` derived words to a schedule. -/
def expandFrom : Nat → List Word → List Word
  | 0, w => w
  | n + 1, w => expandFrom n (w ++ [nextWord w])

/-- `expand(B)`: 16 words of the block, then 48 derived ones (42_scheduler.md R130). -/
def expand (b : List Byte) : List Word := expandFrom 48 ((List.range 16).map (blockWord b))

/-- The working registers after rounds `0` to `n - 1` (43_compressor.md R140). -/
def rounds (w : List Word) (v : Vector Word 8) : Nat → Vector Word 8
  | 0 => v
  | n + 1 => round (rounds w v n) (kTable.toList.getD n 0) (w.getD n 0)

/-- `compress(S, w)`: 64 rounds from `S`, then the addition into `S` (43_compressor.md R140). -/
def compress (x : Vector Word 8) (w : List Word) : Vector Word 8 := addWords x (rounds w x 64)

/-- `S_n`: the hash state after the first `n` blocks of a padded message (44_engine.md R160). -/
def hashBlocks (p : List Byte) : Nat → Vector Word 8
  | 0 => iv
  | n + 1 => compress (hashBlocks p n) (expand (block p n))

/-- `digest(M)` (44_engine.md R160). -/
def digest (m : List Byte) : Vector Byte 32 := bytesOfWords (hashBlocks (pad m) ((pad m).length / 64))

/-- The message of a sample of the ports: `len` bytes from offset 0 (10_state.md R25). -/
def PortIn.message (p : PortIn) : List Byte :=
  (List.range p.len.toNat).map fun i => (Memory.lookup p.msg i).getD msgUnlisted

end Sys2Proof.Machine
end

