-- ==== Sys2Proof/Safety.lean ====
section
/-! DEFINITION. What counts as a safe state, in the terms the statements use: the invariant of 10_state.md R31, R32, R39,
20_memory.md R63 and 41_padder.md R120, running for a number of steps, and agreement of two states on everything a run may
still read (10_state.md R38, R40). -/

namespace Sys2Proof.Machine

/-- The machine run for `n` steps, stopping at the first fault or refusal. -/
def runFor : Nat → State → Result
  | 0, s => .next s
  | n + 1, s =>
    match step s with
    | .next t => runFor n t
    | .fault r => .fault r
    | .refused r => .refused r

/-- None of the next `n` samples of the ports is a reset. -/
def State.noReset (s : State) (n : Nat) : Prop := ∀ p ∈ s.inputs.take n, p.rst = false

/-- The invariant of the machine: what holds in every state that a run reaches. -/
structure State.Inv (s : State) : Prop where
  /-- Idle, running and ended exclude each other (10_state.md R31). -/
  phases : s.busy = true → s.done = false
  /-- An ended run ended well or with an error (10_state.md R31, R32). -/
  ended : s.done = true → (s.dvalid = true ↔ s.err = 0)
  /-- `DVALID = 1` implies `DONE = 1` (10_state.md R31). -/
  digestDone : s.dvalid = true → s.done = true
  /-- `ERR` other than 0 implies `DONE = 1` (10_state.md R32). -/
  errorDone : s.err ≠ 0 → s.done = true
  /-- While no run is in progress there is a digest exactly when `DVALID = 1` (10_state.md R35). -/
  digestHeld : s.busy = false → (s.digest.isSome = true ↔ s.dvalid = true)
  /-- During a run there is a digest only between `SER` and `REL` (44_engine.md R164). -/
  digestLate : s.busy = true → (s.digest.isSome = true ↔ s.upc = 134)
  /-- `UPC` names a slot of the ROM (10_state.md R30). -/
  slots : s.upc.toNat ≤ 134
  /-- While no run is in progress `UPC = 0` and no buffer is allocated (44_engine.md R166, 20_memory.md R63). -/
  idle : s.busy = false → s.upc = 0 ∧ s.pbv = false
  /-- Before `PAD` there is no buffer, and the block counter is 0 (20_memory.md R63, 44_engine.md R161). -/
  beforePad : s.busy = true → s.upc.toNat ≤ 2 → s.pbv = false ∧ s.blk = 0
  /-- Past `CHK` there is a message (44_engine.md R162). -/
  hasMessage : s.busy = true → 1 ≤ s.upc.toNat → s.mv = true
  /-- In the body of the block loop there is a buffer, and the block is one of its blocks (10_state.md R39). -/
  inBlock : s.busy = true → 3 ≤ s.upc.toNat → s.upc.toNat ≤ 132 → s.pbv = true ∧ s.blk.toNat < s.nblk.toNat
  /-- A buffer that is not allocated has no length and no content (10_state.md R26, 44_engine.md R165). -/
  released : s.pbv = false → s.plen = 0 ∧ s.nblk = 0 ∧ s.pb = []
  /-- The lengths of an allocated buffer (10_state.md R39). -/
  lengths : s.pbv = true →
    s.plen.toNat = 64 * s.nblk.toNat ∧ 1 ≤ s.nblk.toNat ∧ s.len.toNat + 9 ≤ s.plen.toNat ∧
      s.plen.toNat ≤ s.pbCap ∧ s.plen.toNat - (s.len.toNat + 9) ≤ 63
  /-- Exactly the bytes below `PLEN` of an allocated buffer hold a value (41_padder.md R120). -/
  content : s.pbv = true → ∀ a, (Memory.lookup s.pb a).isSome = true ↔ a < s.plen.toNat
  /-- The buffer is in its canonical form. -/
  pbCanonical : Memory.wf pbUnlisted s.pb = true
  /-- The message is in its canonical form. -/
  msgCanonical : Memory.wf (some msgUnlisted) s.msg = true
  /-- So is every message the host has ready. -/
  inputsCanonical : ∀ p ∈ s.inputs, Memory.wf (some msgUnlisted) p.msg = true

/-- Two states agree on everything that a run may still read: all but what `H`, `V` and `W` hold before the micro-program
writes them (10_state.md R38, R40), and the model's own counter of free values. -/
structure State.Agree (s t : State) : Prop where
  pb : s.pb = t.pb
  plen : s.plen = t.plen
  nblk : s.nblk = t.nblk
  pbv : s.pbv = t.pbv
  digest : s.digest = t.digest
  len : s.len = t.len
  mv : s.mv = t.mv
  blk : s.blk = t.blk
  upc : s.upc = t.upc
  busy : s.busy = t.busy
  done : s.done = t.done
  dvalid : s.dvalid = t.dvalid
  err : s.err = t.err
  msg : s.msg = t.msg
  capExtra : s.capExtra = t.capExtra
  inputs : s.inputs = t.inputs
  /-- `H` is written by `INIT`, in slot 1. -/
  h : s.busy = true → 2 ≤ s.upc.toNat → s.h = t.h
  /-- `V` is written by `VLD`, in slot 67, and dead after `HADD`, in slot 132. -/
  v : s.busy = true → 68 ≤ s.upc.toNat → s.upc.toNat ≤ 132 → s.v = t.v
  /-- `W[j]` is written in slot `j + 3` for each block, and dead after `HADD`. -/
  w : s.busy = true → s.upc.toNat ≤ 132 → ∀ j : Fin 64, j.val + 3 < s.upc.toNat → s.w[j] = t.w[j]

end Sys2Proof.Machine
end

