-- ==== Sys2Proof/Certificates/Slice0/Obligations.lean ====
section
/-! DEFINITION. The statements about the core, each from a rule of the spec. Where a statement writes `{ s with … }`, every
field that is not named keeps its value: that is the instruction's frame. `draws` is the model's own counter (log 20);
no statement rests on a value of it: where it may change, some `k` stands for what it becomes. -/

open Sys2Proof Sys2Proof.Machine

/-! ### The micro-operations -/

/-- 44_engine.md R162, with its word and slot; the error entry is R196 (`ErrorEntryEndsTheRun`). -/
def Obligations.ChkChecksForAMessage : Prop :=
  decode 0x100#12 = .ok .chk ∧ romWord 0 = some 0x100#12 ∧
  (∀ s : State, s.mv = true → exec .chk s = .next { s with upc := s.upc + 1 }) ∧
  (∀ s : State, s.mv = false → exec .chk s = .next (raise .nullInput s))

/-- 44_engine.md R163, with its word and slot and the values of 10_state.md R23. -/
def Obligations.InitLoadsTheInitialHash : Prop :=
  decode 0x200#12 = .ok .init ∧ romWord 1 = some 0x200#12 ∧
  ∀ s : State, exec .init s = .next { s with
    h := #v[0x6a09e667#32, 0xbb67ae85#32, 0x3c6ef372#32, 0xa54ff53a#32, 0x510e527f#32, 0x9b05688c#32, 0x1f83d9ab#32, 0x5be0cd19#32]
    upc := s.upc + 1 }

/-- 60_exceptions.md R192, R193: the two errors of `PAD`, the length test first, with no byte of `MSG` read; the error entry is
R196. `PLEN` is `LEN + 1 + z + 8` with `z = (55 - LEN) mod 64` (41_padder.md R113). -/
def Obligations.PadRaisesItsTwoErrors : Prop :=
  (∀ s : State, 2 ^ 61 ≤ s.len.toNat → exec .pad s = .next (raise .inputTooLarge s) ∧ padReads s = []) ∧
  (∀ (s : State) (z : Nat), (z : Int) = (55 - (s.len.toNat : Int)) % 64 → s.len.toNat < 2 ^ 61 →
    s.pbCap < s.len.toNat + 1 + z + 8 → exec .pad s = .next (raise .allocationFailure s) ∧ padReads s = [])

/-- 41_padder.md R116 to R119, with its word and slot: the marker, the zero fill, the length field and the commit; every byte
from `PLEN` on, and everything else, is unchanged. THE MODEL'S CHOICE (log 19): in a state whose buffer is not empty, which no
run reaches, the bytes from `PLEN` on are kept (R120, which the spec marks as derived, has none written). The bytes below `LEN` are in `PadBufferIsThePaddedMessage`. -/
def Obligations.PadBuildsTheBuffer : Prop :=
  decode 0x300#12 = .ok .pad ∧ romWord 2 = some 0x300#12 ∧
  ∀ (s : State) (n z plen : Nat), n = s.len.toNat → (z : Int) = (55 - (n : Int)) % 64 → plen = n + 1 + z + 8 →
    n < 2 ^ 61 → plen ≤ s.pbCap →
    ∃ m : Memory,
      exec .pad s = .next { s with
        pb := m, plen := BitVec.ofNat 64 plen, nblk := BitVec.ofNat 64 (plen / 64), pbv := true, upc := s.upc + 1 } ∧
      Memory.lookup m n = some 0x80#8 ∧
      (∀ i, n < i → i ≤ n + z → Memory.lookup m i = some 0x00#8) ∧
      (∀ k, k < 8 → Memory.lookup m (plen - 8 + k) = some (BitVec.ofNat 8 (8 * n / 2 ^ (56 - 8 * k)))) ∧
      (∀ a, plen ≤ a → Memory.lookup m a = Memory.lookup s.pb a)

/-- 41_padder.md R110, R115 and the layout of 20_memory.md R60: what `PAD` leaves in `PB[0 .. PLEN-1]` is the message followed
by the marker, `z` zeros and the length field, which is the function `pad` of the message. THE MODEL'S CHOICE (log 5): a message
offset that is not listed holds `0x00`. -/
def Obligations.PadBufferIsThePaddedMessage : Prop :=
  ∀ (s : State) (m : List Byte), s.len.toNat < 2 ^ 61 → padLength s.len.toNat ≤ s.pbCap →
    m.length = s.len.toNat → (∀ i, i < s.len.toNat → m[i]? = some ((Memory.lookup s.msg i).getD 0)) →
    ∃ t, exec .pad s = .next t ∧ t.plen.toNat = (pad m).length ∧ t.nblk.toNat * 64 = (pad m).length ∧
      (∀ i, i < (pad m).length → Memory.lookup t.pb i = (pad m)[i]?) ∧ (pad m).take m.length = m

/-- 42_scheduler.md R131, with its words and slots: the four bytes hold values and lie in the memory behind `PB`. -/
def Obligations.WldLoadsAScheduleWord : Prop :=
  (∀ t : BitVec 6, t.toNat ≤ 15 →
    decode (0x400#12 + t.setWidth 12) = .ok (.wld t) ∧ romWord (t.toNat + 3) = some (0x400#12 + t.setWidth 12)) ∧
  ∀ (s : State) (t : BitVec 6) (b0 b1 b2 b3 : Byte), t.toNat ≤ 15 → 64 * s.blk.toNat + 4 * t.toNat + 3 < s.pbCap →
    Memory.lookup s.pb (64 * s.blk.toNat + 4 * t.toNat) = some b0 →
    Memory.lookup s.pb (64 * s.blk.toNat + 4 * t.toNat + 1) = some b1 →
    Memory.lookup s.pb (64 * s.blk.toNat + 4 * t.toNat + 2) = some b2 →
    Memory.lookup s.pb (64 * s.blk.toNat + 4 * t.toNat + 3) = some b3 →
    exec (.wld t) s = .next { s with
      w := s.w.set t.toNat (BitVec.ofNat 32 (b0.toNat * 2 ^ 24 + b1.toNat * 2 ^ 16 + b2.toNat * 2 ^ 8 + b3.toNat)) t.isLt
      upc := s.upc + 1 }

/-- THE MODEL'S CHOICE (logs 2, 10; 93_implementation_defined.md U1; 20_memory.md R61): inside the `PB_CAP` bytes `WLD`
completes whatever the bytes hold (where one holds `⊥`, with some word); outside them it stops. -/
def Obligations.WldCompletesInsideTheMemory : Prop :=
  (∀ (s : State) (t : BitVec 6), t.toNat ≤ 15 → 64 * s.blk.toNat + 4 * t.toNat + 3 < s.pbCap →
    ∃ x : Word, exec (.wld t) s = .next { s with w := s.w.set t.toNat x t.isLt, upc := s.upc + 1 }) ∧
  (∀ (s : State) (t : BitVec 6), t.toNat ≤ 15 → s.pbCap ≤ 64 * s.blk.toNat + 4 * t.toNat + 3 →
    exec (.wld t) s = .fault .pbOutside)

/-- 42_scheduler.md R132, with its words and slots. -/
def Obligations.WexDerivesAScheduleWord : Prop :=
  (∀ t : BitVec 6, 16 ≤ t.toNat →
    decode (0x500#12 + t.setWidth 12) = .ok (.wex t) ∧ romWord (t.toNat + 3) = some (0x500#12 + t.setWidth 12)) ∧
  ∀ (s : State) (t : BitVec 6) (i2 i7 i15 i16 : Fin 64), i2.val + 2 = t.toNat → i7.val + 7 = t.toNat →
    i15.val + 15 = t.toNat → i16.val + 16 = t.toNat →
    exec (.wex t) s = .next { s with
      w := s.w.set t.toNat (smallSigma1 s.w[i2] + s.w[i7] + smallSigma0 s.w[i15] + s.w[i16]) t.isLt
      upc := s.upc + 1 }

/-- 30_encoding.md R74: an index for which there is no legal word is refused. -/
def Obligations.ReservedIndexIsRefused : Prop :=
  (∀ (s : State) (t : BitVec 6), 16 ≤ t.toNat → exec (.wld t) s = .refused .reservedWord) ∧
  (∀ (s : State) (t : BitVec 6), t.toNat < 16 → exec (.wex t) s = .refused .reservedWord)

/-- 43_compressor.md R141, with its word and slot. -/
def Obligations.VldLoadsTheWorkingRegisters : Prop :=
  decode 0x600#12 = .ok .vld ∧ romWord 67 = some 0x600#12 ∧
  ∀ s : State, exec .vld s = .next { s with v := s.h, upc := s.upc + 1 }

/-- 43_compressor.md R142, R147, R148, with its words and slots: all eight right-hand sides are the old registers. -/
def Obligations.RndIsOneRound : Prop :=
  (∀ t : BitVec 6,
    decode (0x700#12 + t.setWidth 12) = .ok (.rnd t) ∧ romWord (t.toNat + 68) = some (0x700#12 + t.setWidth 12)) ∧
  ∀ (s : State) (t : BitVec 6) (a b c d e f g h t1 t2 : Word), s.v = #v[a, b, c, d, e, f, g, h] →
    t1 = h + bigSigma1 e + ch e f g + kTable[t.toNat]'t.isLt + s.w[t.toNat]'t.isLt →
    t2 = bigSigma0 a + maj a b c →
    exec (.rnd t) s = .next { s with v := #v[t1 + t2, a, b, c, d + t1, e, f, g], upc := s.upc + 1 }

/-- 43_compressor.md R143 with its word and slot, and the block loop of 44_engine.md R168, the only branch. -/
def Obligations.HaddAddsAndLoops : Prop :=
  decode 0x800#12 = .ok .hadd ∧ romWord 132 = some 0x800#12 ∧
  ∀ (s : State) (x : Vector Word 8), (∀ i : Fin 8, x[i] = s.h[i] + s.v[i]) →
    (s.blk.toNat + 1 < s.nblk.toNat → exec .hadd s = .next { s with h := x, blk := s.blk + 1, upc := 3 }) ∧
    (¬ s.blk.toNat + 1 < s.nblk.toNat → exec .hadd s = .next { s with h := x, upc := 133 })

/-- 44_engine.md R164 with its word and slot, and the byte order of 20_memory.md R55. -/
def Obligations.SerSerialisesTheHash : Prop :=
  decode 0x900#12 = .ok .ser ∧ romWord 133 = some 0x900#12 ∧
  ∀ s : State, ∃ d : Vector Byte 32, exec .ser s = .next { s with digest := some d, upc := s.upc + 1 } ∧
    ∀ i : Fin 8,
      d.toList[4 * i.val]? = some (s.h[i].extractLsb' 24 8) ∧ d.toList[4 * i.val + 1]? = some (s.h[i].extractLsb' 16 8) ∧
      d.toList[4 * i.val + 2]? = some (s.h[i].extractLsb' 8 8) ∧ d.toList[4 * i.val + 3]? = some (s.h[i].extractLsb' 0 8)

/-- 44_engine.md R165, with its word and slot. `PB <- ⊥` is an empty list. -/
def Obligations.RelEndsTheRun : Prop :=
  decode 0xA00#12 = .ok .rel ∧ romWord 134 = some 0xA00#12 ∧
  ∀ s : State, ∃ k : Nat, exec .rel s = .next { s with
    pbv := false, plen := 0, nblk := 0, pb := [], dvalid := true, done := true, busy := false, upc := 0, draws := k }

/-- 60_exceptions.md R196, with the codes of R190: what raising an error does, and nothing else. -/
def Obligations.ErrorEntryEndsTheRun : Prop :=
  ∀ (s : State) (e : ErrorKind) (code : BitVec 2),
    (e = .nullInput → code = 1) → (e = .allocationFailure → code = 2) → (e = .inputTooLarge → code = 3) →
    ∃ k : Nat, raise e s = { s with
      err := code, pbv := false, plen := 0, nblk := 0, pb := [], dvalid := false, digest := none, done := true
      busy := false, upc := 0, draws := k }

/-! ### The step, the host and the ports -/

/-- 30_encoding.md R76, 44_engine.md R166: while `BUSY = 1`, without a reset, the step is the micro-operation that the word in
slot `UPC` stands for. THE MODEL'S CHOICE (log 6): around it the step reads one sample of the ports, and does no more. -/
def Obligations.StepRunsTheFetchedMicroOp : Prop :=
  ∀ (s : State) (u : MicroWord) (i : Instr), s.busy = true → (∀ p, s.inputs.head? = some p → p.rst = false) →
    romWord s.upc.toNat = some u → decode u = .ok i →
    step s = exec i { s with inputs := s.inputs.tail }

/-- 44_engine.md R161: an accepted `START`. THE MODEL'S CHOICE (logs 5, 6): it is a step of its own, which reads one sample of
the ports, and the message of the sample becomes the parameter of the run (10_state.md R25). -/
def Obligations.StartBeginsARun : Prop :=
  ∀ (s : State) (p : PortIn) (ps : List PortIn), s.inputs = p :: ps → p.start = true → p.rst = false → s.busy = false →
    step s = .next { s with
      len := p.len, mv := p.msgValid, blk := 0, upc := 0, err := 0, done := false, dvalid := false, digest := none
      busy := true, msg := p.msg, inputs := ps }

/-- 44_engine.md R174: a `START` while `BUSY = 1` changes nothing: the step is what it is with the ports at rest (samples of
the ports are the model's, log 6). -/
def Obligations.StartWhileBusyIsIgnored : Prop :=
  ∀ (s : State) (p : PortIn) (ps : List PortIn), s.inputs = p :: ps → p.rst = false → s.busy = true →
    step s = step { s with inputs := PortIn.rest :: ps }

/-- 70_reset_and_hazards.md R210, R211 with the values of 10_state.md R37: reset wins over `start` and over a run. Of `H`,
`V` and `W`, which hold `⊥`, nothing is said. THE MODEL'S CHOICE (log 21): the host's message, the capacity and the samples
still to come are no registers and stay. -/
def Obligations.ResetWinsOverEverything : Prop :=
  ∀ (s : State) (p : PortIn) (ps : List PortIn), s.inputs = p :: ps → p.rst = true →
    ∃ t, step s = .next t ∧
      t.pb = [] ∧ t.pbv = false ∧ t.plen = 0 ∧ t.nblk = 0 ∧ t.digest = none ∧ t.len = 0 ∧ t.mv = false ∧ t.blk = 0 ∧
      t.upc = 0 ∧ t.busy = false ∧ t.done = false ∧ t.dvalid = false ∧ t.err = 0 ∧
      t.msg = s.msg ∧ t.capExtra = s.capExtra ∧ t.inputs = ps

/-- 10_state.md R37: the registers to which the spec gives a value after reset. -/
def Obligations.ResetStateHasTheValuesOfTheSpec : Prop :=
  State.reset.pbv = false ∧ State.reset.plen = 0 ∧ State.reset.nblk = 0 ∧ State.reset.pb = [] ∧ State.reset.digest = none ∧
  State.reset.len = 0 ∧ State.reset.mv = false ∧ State.reset.blk = 0 ∧ State.reset.upc = 0 ∧ State.reset.busy = false ∧
  State.reset.done = false ∧ State.reset.dvalid = false ∧ State.reset.err = 0

/-- 44_engine.md R173, 60_exceptions.md R199, R207: while the host neither starts nor resets it, an idle core keeps its whole
state, so a result or an error stays and may be read again and again. -/
def Obligations.ResultStaysUntilStartOrReset : Prop :=
  ∀ (n : Nat) (s : State), s.busy = false → (∀ p ∈ s.inputs.take n, p.rst = false ∧ p.start = false) →
    runFor n s = .next { s with inputs := s.inputs.drop n }

/-- 10_state.md R34, R35 (THE MODEL'S CHOICE, log 3: no value is `none`): the port `digest` shows `DIGEST[0]` on bits 255 to 248 and so on while `DVALID = 1`, and no value
otherwise. -/
def Obligations.DigestPortShowsTheDigest : Prop :=
  (∀ (s : State) (d : Vector Byte 32), s.dvalid = true → s.digest = some d →
    ∃ x : BitVec 256, portDigest s = some x ∧ ∀ i : Fin 32, x.extractLsb' (248 - 8 * i.val) 8 = d[i]) ∧
  (∀ s : State, s.dvalid = false → portDigest s = none)

/-! ### The encoding and the ROM -/

/-- 30_encoding.md R72, R74 and 95_test_vectors.md V42: words of the table, and reserved words with the reason. -/
def Obligations.DecodeReadsTheTableWords : Prop :=
  decode 0x100#12 = .ok .chk ∧ decode 0x40F#12 = .ok (.wld 15#6) ∧ decode 0x510#12 = .ok (.wex 16#6) ∧
  decode 0x53F#12 = .ok (.wex 63#6) ∧ decode 0x73F#12 = .ok (.rnd 63#6) ∧ decode 0xA00#12 = .ok .rel ∧
  decode 0x000#12 = .error .reservedOp ∧ decode 0x101#12 = .error .reservedT ∧ decode 0x140#12 = .error .reservedZ ∧
  decode 0x410#12 = .error .reservedT ∧ decode 0x50F#12 = .error .reservedT ∧ decode 0xB00#12 = .error .reservedOp ∧
  decode 0xFFF#12 = .error .reservedZ

/-- 30_encoding.md R72, R74: a word is accepted exactly when `Z = 0`, its `OP` is in the table and its `T` in the range. -/
def Obligations.DecodeAcceptsExactlyTheLegalWords : Prop :=
  ∀ (u : MicroWord) (op z t : Nat), u.toNat = 256 * op + 64 * z + t → z < 4 → t < 64 →
    ((∃ i, decode u = .ok i) ↔
      z = 0 ∧ ((op = 0x4 ∧ t ≤ 15) ∨ (op = 0x5 ∧ 16 ≤ t) ∨ op = 0x7 ∨
        (t = 0 ∧ (op = 0x1 ∨ op = 0x2 ∨ op = 0x3 ∨ op = 0x6 ∨ op = 0x8 ∨ op = 0x9 ∨ op = 0xA))))

/-- 30_encoding.md R71, R72: the decoder gives back every well-formed micro-operation, at every value of its operand. -/
def Obligations.DecodeOfEncodeIsTheMicroOp : Prop := ∀ i : Instr, i.wf = true → decode (encode i) = .ok i

/-- 30_encoding.md R72: each legal word has one meaning, and no bit of it is dropped. -/
def Obligations.EncodeOfDecodeIsTheWord : Prop :=
  ∀ (u : MicroWord) (i : Instr), decode u = .ok i → i.wf = true ∧ encode i = u

/-- 30_encoding.md R75: the ROM has 135 slots with the content of the rule's table, each holds a legal word, and every legal
word occurs in exactly one slot. -/
def Obligations.EveryLegalWordHasOneSlot : Prop :=
  (∀ n : Nat, (romWord n).isSome = true ↔ n < 135) ∧
  (romWord 0 = some 0x100#12 ∧ romWord 1 = some 0x200#12 ∧ romWord 2 = some 0x300#12 ∧ romWord 67 = some 0x600#12 ∧
    romWord 132 = some 0x800#12 ∧ romWord 133 = some 0x900#12 ∧ romWord 134 = some 0xA00#12) ∧
  (decode 0x100#12 = .ok .chk ∧ decode 0x200#12 = .ok .init ∧ decode 0x300#12 = .ok .pad ∧ decode 0x600#12 = .ok .vld ∧
    decode 0x800#12 = .ok .hadd ∧ decode 0x900#12 = .ok .ser ∧ decode 0xA00#12 = .ok .rel) ∧
  (∀ n : Nat, 3 ≤ n → n ≤ 18 → romWord n = some (BitVec.ofNat 12 (0x400 + (n - 3))) ∧
    decode (BitVec.ofNat 12 (0x400 + (n - 3))) = .ok (.wld (BitVec.ofNat 6 (n - 3)))) ∧
  (∀ n : Nat, 19 ≤ n → n ≤ 66 → romWord n = some (BitVec.ofNat 12 (0x500 + (n - 3))) ∧
    decode (BitVec.ofNat 12 (0x500 + (n - 3))) = .ok (.wex (BitVec.ofNat 6 (n - 3)))) ∧
  (∀ n : Nat, 68 ≤ n → n ≤ 131 → romWord n = some (BitVec.ofNat 12 (0x700 + (n - 68))) ∧
    decode (BitVec.ofNat 12 (0x700 + (n - 68))) = .ok (.rnd (BitVec.ofNat 6 (n - 68)))) ∧
  (∀ (n : Nat) (u : MicroWord), romWord n = some u → ∃ i, decode u = .ok i) ∧
  (∀ i : Instr, i.wf = true → ∃ n, romWord n = some (encode i) ∧ ∀ k, romWord k = some (encode i) → k = n)

/-! ### Word operations and lengths -/

/-- 10_state.md R23, R24 (which the spec marks as general knowledge, log 13): `K[t]` is the first 32 bits of the fractional
part of the cube root of prime number `t`, `IV[i]` of the square root of prime number `i`; `ps` are the primes to 311. -/
def Obligations.ConstantsAreFractionalRoots : Prop :=
  ∃ ps : List Nat, ps.length = 64 ∧ ps.Pairwise (· < ·) ∧
    (∀ p, p ∈ ps ↔ 2 ≤ p ∧ p ≤ 311 ∧ ∀ d, 2 ≤ d → d < p → p % d ≠ 0) ∧
    (∀ (t : Fin 64) (p : Nat), ps[t.val]? = some p → ∃ c : Nat,
      (c * 2 ^ 32 + kTable[t].toNat) ^ 3 ≤ p * 2 ^ 96 ∧ p * 2 ^ 96 < (c * 2 ^ 32 + kTable[t].toNat + 1) ^ 3) ∧
    (∀ (i : Fin 8) (p : Nat), ps[i.val]? = some p → ∃ c : Nat,
      (c * 2 ^ 32 + iv[i].toNat) ^ 2 ≤ p * 2 ^ 64 ∧ p * 2 ^ 64 < (c * 2 ^ 32 + iv[i].toNat + 1) ^ 2)

/-- 40_word_ops.md R93, R94: bit `i` of `rotr(x, n)` is bit `(i + n) mod 32` of `x`; `shr` shifts zeros in. -/
def Obligations.RotateAndShiftByBit : Prop :=
  ∀ (x : Word) (n i : Nat), 0 < n → n < 32 → i < 32 →
    (rotr x n).getLsbD i = x.getLsbD ((i + n) % 32) ∧
    (shr x n).getLsbD i = (if i + n < 32 then x.getLsbD (i + n) else false) ∧ (shr x n).toNat = x.toNat / 2 ^ n

/-- 40_word_ops.md R95 to R98, bit by bit. -/
def Obligations.SigmaFunctionsByBit : Prop :=
  ∀ (x : Word) (i : Nat), i < 32 →
    (smallSigma0 x).getLsbD i = (x.getLsbD ((i + 7) % 32) ^^ x.getLsbD ((i + 18) % 32) ^^ (decide (i + 3 < 32) && x.getLsbD (i + 3))) ∧
    (smallSigma1 x).getLsbD i = (x.getLsbD ((i + 17) % 32) ^^ x.getLsbD ((i + 19) % 32) ^^ (decide (i + 10 < 32) && x.getLsbD (i + 10))) ∧
    (bigSigma0 x).getLsbD i = (x.getLsbD ((i + 2) % 32) ^^ x.getLsbD ((i + 13) % 32) ^^ x.getLsbD ((i + 22) % 32)) ∧
    (bigSigma1 x).getLsbD i = (x.getLsbD ((i + 6) % 32) ^^ x.getLsbD ((i + 11) % 32) ^^ x.getLsbD ((i + 25) % 32))

/-- 40_word_ops.md R99, R100: `Ch` selects, `Maj` takes the majority, at each bit alone. -/
def Obligations.ChSelectsAndMajIsTheMajority : Prop :=
  ∀ (x y z : Word) (i : Nat), i < 32 →
    (ch x y z).getLsbD i = (if x.getLsbD i then y.getLsbD i else z.getLsbD i) ∧
    (maj x y z).getLsbD i =
      decide (2 ≤ (x.getLsbD i).toNat + (y.getLsbD i).toNat + (z.getLsbD i).toNat)

/-- 40_word_ops.md R101, R102: `be32` has the value of the formula, and `bytes32`, the four bytes from the top, is its
inverse. -/
def Obligations.BytesAndWordsAreInverse : Prop :=
  (∀ b0 b1 b2 b3 : Byte,
    (be32 b0 b1 b2 b3).toNat = b0.toNat * 2 ^ 24 + b1.toNat * 2 ^ 16 + b2.toNat * 2 ^ 8 + b3.toNat ∧
    bytes32 (be32 b0 b1 b2 b3) = [b0, b1, b2, b3]) ∧
  (∀ x : Word, bytes32 x = [x.extractLsb' 24 8, x.extractLsb' 16 8, x.extractLsb' 8 8, x.extractLsb' 0 8]) ∧
  (∀ (x : Word) (b0 b1 b2 b3 : Byte), bytes32 x = [b0, b1, b2, b3] → be32 b0 b1 b2 b3 = x)

/-- 20_memory.md R54, 40_word_ops.md R103, R104: the length field, read back as a big-endian number, is `8 * LEN` with all its
64 bits. -/
def Obligations.LengthFieldKeepsAllBits : Prop :=
  ∀ n : Nat, n < 2 ^ 61 →
    (bytes64 (bitLength n)).length = 8 ∧ (bytes64 (bitLength n)).foldl (fun acc b => acc * 256 + b.toNat) 0 = 8 * n

/-- 41_padder.md R113: the amount of padding. -/
def Obligations.PaddingIsTheLeastThatFits : Prop :=
  ∀ n : Nat,
    (padZeros n : Int) = (55 - (n : Int)) % 64 ∧ padZeros n ≤ 63 ∧ padLength n = n + 1 + padZeros n + 8 ∧
    padLength n % 64 = 0 ∧ n + 9 ≤ padLength n ∧ padLength n ≤ n + 72 ∧ padLength n / 64 = (n + 8) / 64 + 1 ∧
    (∀ z : Nat, (n + 1 + z + 8) % 64 = 0 → padZeros n ≤ z) ∧
    (n ≤ 2 ^ 61 - 1 → padLength n ≤ 2 ^ 61 + 64 ∧ padLength n / 64 ≤ 2 ^ 55 + 1) ∧
    (n = 2 ^ 61 - 1 → padLength n = 2 ^ 61 + 64 ∧ padLength n / 64 = 2 ^ 55 + 1)

/-- 42_scheduler.md R130: the function `expand` obeys the formulas of the rule. -/
def Obligations.ExpandObeysTheRecurrence : Prop :=
  ∀ b : List Byte, b.length = 64 →
    (expand b).length = 64 ∧
    (∀ (t : Nat) (b0 b1 b2 b3 : Byte), t < 16 → b[4 * t]? = some b0 → b[4 * t + 1]? = some b1 → b[4 * t + 2]? = some b2 →
      b[4 * t + 3]? = some b3 → (expand b)[t]? = some (be32 b0 b1 b2 b3)) ∧
    (∀ (t : Nat) (w w2 w7 w15 w16 : Word), 16 ≤ t → t < 64 → (expand b)[t]? = some w → (expand b)[t - 2]? = some w2 →
      (expand b)[t - 7]? = some w7 → (expand b)[t - 15]? = some w15 → (expand b)[t - 16]? = some w16 →
      w = smallSigma1 w2 + w7 + smallSigma0 w15 + w16)

/-! ### Frames: who may write what -/

/-- 10_state.md R20, R21, R22, R25, R27, R28, R29: the only writers of the register files, the digest, the block counter,
the latches, the message; and the host's side of the state is never written by a micro-operation. -/
def Obligations.RegistersHaveOnlyTheirWriters : Prop :=
  ∀ (i : Instr) (s t : State), exec i s = .next t →
    (t.h = s.h ∨ i = .init ∨ i = .hadd) ∧
    (t.v = s.v ∨ i = .vld ∨ ∃ k, i = .rnd k) ∧
    (∀ j : Fin 64, t.w[j] = s.w[j] ∨ ∃ k : BitVec 6, k.toNat = j.val ∧ (i = .wld k ∨ i = .wex k)) ∧
    (t.digest = s.digest ∨ i = .ser ∨ (t.digest = none ∧ (i = .chk ∨ i = .pad))) ∧
    (t.blk = s.blk ∨ i = .hadd) ∧
    t.len = s.len ∧ t.mv = s.mv ∧ t.msg = s.msg ∧ t.capExtra = s.capExtra ∧ t.inputs = s.inputs

/-- 10_state.md R26: the buffer and its registers are written only by `PAD`, by `REL` and by an error, so a micro-operation
that stores nothing leaves every byte. THE MODEL'S CHOICE (log 19): `PAD` leaves every byte from `PLEN` on, also in a state whose
buffer is not empty, which no run reaches (R61 and R120, which the spec marks as derived, bear on it). -/
def Obligations.BufferHasOnlyItsWriters : Prop :=
  (∀ (i : Instr) (s t : State), i ≠ .pad → i ≠ .rel → i ≠ .chk → exec i s = .next t →
    (∀ a, Memory.lookup t.pb a = Memory.lookup s.pb a) ∧ t.plen = s.plen ∧ t.nblk = s.nblk ∧ t.pbv = s.pbv) ∧
  (∀ s t : State, s.mv = true → exec .chk s = .next t →
    (∀ a, Memory.lookup t.pb a = Memory.lookup s.pb a) ∧ t.plen = s.plen ∧ t.nblk = s.nblk ∧ t.pbv = s.pbv) ∧
  (∀ s t : State, s.len.toNat < 2 ^ 61 → padLength s.len.toNat ≤ s.pbCap → exec .pad s = .next t →
    ∀ a, padLength s.len.toNat ≤ a → Memory.lookup t.pb a = Memory.lookup s.pb a)

/-- 10_state.md R31, R32, 60_exceptions.md section 1 (derived there): only `CHK` and `PAD` can raise an error, only `REL` and an error write a
status flag, and an error leaves exactly the flags of R196. -/
def Obligations.OnlyChkAndPadRaise : Prop :=
  ∀ (i : Instr) (s t : State), exec i s = .next t →
    (t.busy = s.busy ∧ t.done = s.done ∧ t.dvalid = s.dvalid ∧ t.err = s.err) ∨
    (i = .rel ∧ t.busy = false ∧ t.done = true ∧ t.dvalid = true ∧ t.err = s.err) ∨
    (i = .chk ∧ t.busy = false ∧ t.done = true ∧ t.dvalid = false ∧ t.err = 1) ∨
    (i = .pad ∧ t.busy = false ∧ t.done = true ∧ t.dvalid = false ∧ (t.err = 2 ∨ t.err = 3))

/-- 44_engine.md R169, R177: without a reset a run ends in only two ways, `REL` in slot 134 or an error, and both leave
`UPC = 0` and no buffer. -/
def Obligations.RunEndsOnlyByRelOrError : Prop :=
  ∀ s t : State, s.busy = true → (∀ p, s.inputs.head? = some p → p.rst = false) → step s = .next t → t.busy = false →
    t.upc = 0 ∧ t.pbv = false ∧ t.done = true ∧
      ((s.upc = 134 ∧ t.dvalid = true ∧ t.err = s.err ∧ t.digest = s.digest) ∨
       (s.upc.toNat ≤ 2 ∧ t.dvalid = false ∧ t.err ≠ 0 ∧ t.digest = none))

/-! ### Invariants and isolation -/

/-- The invariant of 10_state.md R31, R32 and section 8 (which the spec marks as derived) holds after reset. -/
def Obligations.ResetMeetsTheInvariant : Prop := State.reset.Inv

/-- 10_state.md R30, R31, R32 and section 8, 20_memory.md R63, 41_padder.md section 3 (what the spec marks there as derived
from its rules is proved here): every step keeps the invariant, whatever the host does on the ports. -/
def Obligations.EveryStepKeepsTheInvariant : Prop := ∀ s t : State, s.Inv → step s = .next t → t.Inv

/-- 60_exceptions.md section 1 and 20_memory.md section 4 (derived there: nothing else can be raised, every access stays inside
its space), 10_state.md R30: from a state that meets the invariant no step stops: no access leaves its space, no reserved
word is met, `UPC` does not run off the ROM. -/
def Obligations.NoStepStopsUnderTheInvariant : Prop := ∀ s : State, s.Inv → ∃ t, step s = .next t

/-- 10_state.md section 8 (which the spec marks as derived): the micro-program never reads `⊥`. Two states that differ only in what `H`, `V` and `W` hold before
they are written (and in the model's counter) step to two such states. -/
def Obligations.UnwrittenRegistersAreNeverRead : Prop :=
  ∀ s t s' : State, s.Inv → s.Agree t → step s = .next s' → ∃ t', step t = .next t' ∧ s'.Agree t'

/-- 44_engine.md R172: what the host sees of a run, at every step from its `START` on, depends on nothing that an earlier run
left behind: two idle cores of the same capacity, given the same samples of the ports, show the same. -/
def Obligations.RunsDoNotLeakIntoEachOther : Prop :=
  ∀ (s t : State) (p : PortIn) (ps : List PortIn) (n : Nat) (s' : State), s.Inv → t.Inv → s.busy = false → t.busy = false →
    s.capExtra = t.capExtra → s.inputs = p :: ps → t.inputs = p :: ps → p.start = true → p.rst = false →
    runFor (n + 1) s = .next s' →
    ∃ t', runFor (n + 1) t = .next t' ∧ portBusy s' = portBusy t' ∧ portDone s' = portDone t' ∧ portErr s' = portErr t' ∧
      portDigestValid s' = portDigestValid t' ∧ portDigest s' = portDigest t'

/-! ### Whole procedures -/

/-- 42_scheduler.md section 4 (which the spec marks as derived): the macro `EXPAND`, slots 3 to 66, leaves `W = expand(block)` and changes nothing else but `UPC`. -/
def Obligations.ExpandMacroFillsTheSchedule : Prop :=
  ∀ (s : State) (b : List Byte), s.busy = true → s.upc = 3 → s.noReset 64 → b.length = 64 →
    64 * s.blk.toNat + 63 < s.pbCap → (∀ i, i < 64 → Memory.lookup s.pb (64 * s.blk.toNat + i) = b[i]?) →
    ∃ x : Vector Word 64, x.toList = expand b ∧
      runFor 64 s = .next { s with w := x, upc := 67, inputs := s.inputs.drop 64 }

/-- 43_compressor.md section 5 (which the spec marks as derived): the macro `COMPRESS`, slots 67 to 132, leaves `H = compress(H, W)` and changes `V`, `UPC` and
possibly `BLK`, and nothing else. -/
def Obligations.CompressMacroFoldsABlock : Prop :=
  ∀ s : State, s.busy = true → s.upc = 67 → s.noReset 66 →
    ∃ y : Vector Word 8,
      (s.blk.toNat + 1 < s.nblk.toNat →
        runFor 66 s = .next { s with
          h := compress s.h s.w.toList, v := y, blk := s.blk + 1, upc := 3, inputs := s.inputs.drop 66 }) ∧
      (¬ s.blk.toNat + 1 < s.nblk.toNat →
        runFor 66 s = .next { s with h := compress s.h s.w.toList, v := y, upc := 133, inputs := s.inputs.drop 66 })

/-- 44_engine.md section 3, what a run computes and how long it is (which the spec marks as derived): a `START` with a message that fits, and no reset, ends after
`5 + 130 * NBLK` micro-operations with `DIGEST = digest(MSG)`, whatever the core held before. -/
def Obligations.RunComputesTheDigest : Prop :=
  ∀ (s : State) (p : PortIn) (ps : List PortIn), s.inputs = p :: ps → p.rst = false → p.start = true →
    p.msgValid = true → s.busy = false → p.len.toNat < 2 ^ 61 → padLength p.len.toNat ≤ s.pbCap →
    (∀ q ∈ ps.take (5 + 130 * ((p.len.toNat + 8) / 64 + 1)), q.rst = false) →
    ∃ t, runFor (1 + (5 + 130 * ((p.len.toNat + 8) / 64 + 1))) s = .next t ∧
      t.busy = false ∧ t.done = true ∧ t.dvalid = true ∧ t.err = 0 ∧ t.upc = 0 ∧ t.pbv = false ∧
      t.digest = some (digest p.message)

/-- 60_exceptions.md R198, 44_engine.md section 3 (derived there): the other runs end with an error and no digest, after 1 or 3
micro-operations, the first cause in the order `NullInput`, `InputTooLarge`, `AllocationFailure` being reported. -/
def Obligations.OtherRunsEndWithTheirError : Prop :=
  ∀ (s : State) (p : PortIn) (ps : List PortIn), s.inputs = p :: ps → p.rst = false → p.start = true → s.busy = false →
    (∀ q ∈ ps.take 3, q.rst = false) →
    (p.msgValid = false →
      ∃ t, runFor 2 s = .next t ∧ t.busy = false ∧ t.done = true ∧ t.dvalid = false ∧ t.err = 1 ∧ t.digest = none ∧
        t.h = s.h) ∧
    (p.msgValid = true → 2 ^ 61 ≤ p.len.toNat →
      ∃ t, runFor 4 s = .next t ∧ t.busy = false ∧ t.done = true ∧ t.dvalid = false ∧ t.err = 3 ∧ t.digest = none ∧
        t.h = iv) ∧
    (p.msgValid = true → p.len.toNat < 2 ^ 61 → s.pbCap < padLength p.len.toNat →
      ∃ t, runFor 4 s = .next t ∧ t.busy = false ∧ t.done = true ∧ t.dvalid = false ∧ t.err = 2 ∧ t.digest = none ∧
        t.h = iv)

/-! ### The message port -/

/-- 10_state.md R34, 20_memory.md R51, 41_padder.md R115: what the port `msg_addr` asks for during a step. `PAD`, in slot 2,
asks for each byte of the message once, in order, unless it raises; no other step asks for a byte; no offset of `LEN` or more is
ever asked for, and nothing when `MV = 0` (a run without a message ends in `CHK`, which `State.Inv` says of every state). THE
MODEL'S CHOICE (log 16): the port's values are a list for each step, since `PAD` is one step. -/
def Obligations.MessagePortAsksForEachByteOnce : Prop :=
  (∀ s : State, s.busy = true → (∀ p, s.inputs.head? = some p → p.rst = false) → s.upc = 2 → s.len.toNat < 2 ^ 61 →
    padLength s.len.toNat ≤ s.pbCap →
    (portMsgAddrs s).length = s.len.toNat ∧ ∀ i, i < s.len.toNat → (portMsgAddrs s)[i]? = some (BitVec.ofNat 64 i)) ∧
  (∀ s : State, s.busy = false ∨ s.upc ≠ 2 ∨ 2 ^ 61 ≤ s.len.toNat ∨ s.pbCap < padLength s.len.toNat ∨
    (∃ p, s.inputs.head? = some p ∧ p.rst = true) → portMsgAddrs s = []) ∧
  (∀ (s : State) (a : BitVec 64), a ∈ portMsgAddrs s → a.toNat < s.len.toNat) ∧
  (∀ s : State, s.Inv → s.mv = false → portMsgAddrs s = [])
end

