-- ==== Sys2Proof/Laws/Memory.lean ====
section
/-! SUPPORT. The laws of a byte memory: what a read gives after each operation, and that every operation keeps the canonical
form `Memory.wf`. -/

namespace Sys2Proof.Machine

/-! ### Reads -/

@[simp] theorem lookup_nil (a : Nat) : Memory.lookup [] a = none := rfl

theorem lookup_insert (m : Memory) (a : Nat) (b : Byte) (x : Nat) :
    Memory.lookup (Memory.insert m a b) x = if x = a then some b else Memory.lookup m x := by
  induction m with
  | nil => rfl
  | cons c m ih =>
    obtain ⟨k, c⟩ := c
    by_cases hlt : a < k
    · simp [Memory.insert, hlt, Memory.lookup]
    · by_cases heq : a = k
      · subst heq
        by_cases hx : x = a <;> simp [Memory.insert, Memory.lookup, hx]
      · by_cases hx : x = a
        · subst hx
          simp [Memory.insert, Memory.lookup, hlt, heq, ih]
        · simp [Memory.insert, Memory.lookup, hlt, heq, ih, hx]

/-- A read after a write of `PB`: the byte written at its offset, the byte before everywhere else. -/
theorem lookup_write_pb (m : Memory) (a : Nat) (b : Byte) (x : Nat) :
    Memory.lookup (Memory.write pbUnlisted m a b) x = if x = a then some b else Memory.lookup m x := by
  simp [Memory.write, pbUnlisted, lookup_insert]

/-- A read after writing a list of bytes to `PB`: the bytes written at their offsets, the byte before everywhere else. -/
theorem lookup_writeBytes (bs : List Byte) (m : Memory) (a x : Nat) :
    Memory.lookup (Memory.writeBytes m a bs) x =
      if a ≤ x ∧ x < a + bs.length then bs[x - a]? else Memory.lookup m x := by
  induction bs generalizing m a with
  | nil =>
    have : ¬ (a ≤ x ∧ x < a) := by omega
    simp [Memory.writeBytes, this]
  | cons b bs ih =>
    rw [Memory.writeBytes, ih, lookup_write_pb]
    by_cases hx : x = a
    · subst hx
      simp
    · by_cases hin : a + 1 ≤ x ∧ x < a + 1 + bs.length
      · have h' : a ≤ x ∧ x < a + (b :: bs).length := by simp only [List.length_cons]; omega
        obtain ⟨d, rfl⟩ : ∃ d, x = a + 1 + d := ⟨x - (a + 1), by omega⟩
        simp only [hin, h', and_self, if_true]
        simp [show a + 1 + d - a = d + 1 by omega]
      · have h' : ¬ (a ≤ x ∧ x < a + (b :: bs).length) := by simp only [List.length_cons]; omega
        rw [if_neg hin, if_neg h', if_neg hx]

/-! ### The canonical form -/

theorem rising_weaken {lo lo' : Nat} {m : Memory} (h : Memory.rising (some lo) m = true) (hle : lo' ≤ lo) :
    Memory.rising (some lo') m = true := by
  cases m with
  | nil => rfl
  | cons c m =>
    simp only [Memory.rising, Bool.and_eq_true, decide_eq_true_eq] at h ⊢
    exact ⟨by omega, h.2⟩

theorem rising_none {lo : Nat} {m : Memory} (h : Memory.rising (some lo) m = true) : Memory.rising none m = true := by
  cases m with
  | nil => rfl
  | cons c m =>
    simp only [Memory.rising, Bool.and_eq_true] at h ⊢
    exact h.2

theorem rising_insert_above {m : Memory} {lo a : Nat} {b : Byte} (hlo : lo < a)
    (h : Memory.rising (some lo) m = true) : Memory.rising (some lo) (Memory.insert m a b) = true := by
  induction m generalizing lo with
  | nil => simp [Memory.insert, Memory.rising, hlo]
  | cons c m ih =>
    obtain ⟨k, c⟩ := c
    simp only [Memory.rising, Bool.and_eq_true, decide_eq_true_eq] at h
    by_cases hlt : a < k
    · simp [Memory.insert, hlt, Memory.rising, hlo, h.2]
    · by_cases heq : a = k
      · subst heq
        simp [Memory.insert, Memory.rising, hlo, h.2]
      · have hk : k < a := by omega
        simp [Memory.insert, hlt, heq, Memory.rising, h.1, ih hk h.2]

theorem rising_insert {m : Memory} {a : Nat} {b : Byte} (h : Memory.rising none m = true) :
    Memory.rising none (Memory.insert m a b) = true := by
  cases m with
  | nil => rfl
  | cons c m =>
    obtain ⟨k, c⟩ := c
    simp only [Memory.rising] at h
    by_cases hlt : a < k
    · simp [Memory.insert, hlt, Memory.rising, h]
    · by_cases heq : a = k
      · subst heq
        simp [Memory.insert, Memory.rising, h]
      · have hk : k < a := by omega
        simp [Memory.insert, hlt, heq, Memory.rising, rising_insert_above hk h]

theorem rising_erase_above {m : Memory} {lo a : Nat} (h : Memory.rising (some lo) m = true) :
    Memory.rising (some lo) (Memory.erase m a) = true := by
  induction m generalizing lo with
  | nil => rfl
  | cons c m ih =>
    obtain ⟨k, c⟩ := c
    simp only [Memory.rising, Bool.and_eq_true, decide_eq_true_eq] at h
    by_cases heq : a = k
    · simp only [Memory.erase, heq, if_true]
      exact rising_weaken h.2 (by omega)
    · simp [Memory.erase, heq, Memory.rising, h.1, ih h.2]

theorem rising_erase {m : Memory} {a : Nat} (h : Memory.rising none m = true) :
    Memory.rising none (Memory.erase m a) = true := by
  cases m with
  | nil => rfl
  | cons c m =>
    obtain ⟨k, c⟩ := c
    simp only [Memory.rising] at h
    by_cases heq : a = k
    · simp only [Memory.erase, heq, if_true]
      exact rising_none h
    · simp [Memory.erase, heq, Memory.rising, rising_erase_above h]

theorem mem_insert {m : Memory} {a : Nat} {b : Byte} {c : Host.Cell} (h : c ∈ Memory.insert m a b) :
    c = (a, b) ∨ c ∈ m := by
  induction m with
  | nil => simpa [Memory.insert] using h
  | cons d m ih =>
    obtain ⟨k, d⟩ := d
    by_cases hlt : a < k
    · simpa [Memory.insert, hlt] using h
    · by_cases heq : a = k
      · simp only [Memory.insert, heq, if_true, if_false, List.mem_cons, lt_irrefl] at h ⊢
        tauto
      · simp only [Memory.insert, hlt, heq, if_false, List.mem_cons] at h ⊢
        rcases h with h | h
        · exact Or.inr (Or.inl h)
        · rcases ih h with h | h
          · exact Or.inl h
          · exact Or.inr (Or.inr h)

theorem mem_erase {m : Memory} {a : Nat} {c : Host.Cell} (h : c ∈ Memory.erase m a) : c ∈ m := by
  induction m with
  | nil => exact h
  | cons d m ih =>
    obtain ⟨k, d⟩ := d
    by_cases heq : a = k
    · simp only [Memory.erase, heq, if_true, List.mem_cons] at h ⊢
      exact Or.inr h
    · simp only [Memory.erase, heq, if_false, List.mem_cons] at h ⊢
      rcases h with h | h
      · exact Or.inl h
      · exact Or.inr (ih h)

theorem wf_iff (u : Option Byte) (m : Memory) :
    Memory.wf u m = true ↔ Memory.rising none m = true ∧ ∀ c ∈ m, u ≠ some c.2 := by
  simp [Memory.wf]

theorem wf_nil (u : Option Byte) : Memory.wf u [] = true := rfl

/-- Every write keeps the canonical form. -/
theorem wf_write {u : Option Byte} {m : Memory} (a : Nat) (b : Byte) (h : Memory.wf u m = true) :
    Memory.wf u (Memory.write u m a b) = true := by
  rw [wf_iff] at h ⊢
  unfold Memory.write
  split
  · exact ⟨rising_erase h.1, fun c hc => h.2 c (mem_erase hc)⟩
  · rename_i hne
    refine ⟨rising_insert h.1, fun c hc => ?_⟩
    rcases mem_insert hc with rfl | hc
    · exact hne
    · exact h.2 c hc

/-- Writing bytes to `PB` keeps the canonical form. -/
theorem wf_writeBytes (bs : List Byte) {m : Memory} (a : Nat) (h : Memory.wf pbUnlisted m = true) :
    Memory.wf pbUnlisted (Memory.writeBytes m a bs) = true := by
  induction bs generalizing m a with
  | nil => exact h
  | cons b bs ih => exact ih (a + 1) (wf_write a b h)

/-- The memory of a message is in the canonical form. -/
theorem wf_ofMessage (bs : List Byte) : Memory.wf (some msgUnlisted) (Memory.ofMessage bs) = true := by
  have go : ∀ (cs : List (Byte × Nat)) (m : Memory), Memory.wf (some msgUnlisted) m = true →
      Memory.wf (some msgUnlisted) (cs.foldl (fun m c => Memory.write (some msgUnlisted) m c.2 c.1) m) = true := by
    intro cs
    induction cs with
    | nil => exact fun m h => h
    | cons c cs ih => exact fun m h => ih _ (wf_write c.2 c.1 h)
  exact go _ _ (wf_nil _)

end Sys2Proof.Machine
end

