-- ==== Sys2Proof/Laws/State.lean ====
section
/-! SUPPORT. One lemma per field of State and per named update (Machine/Ops.lean, Flags.lean, Padder.lean, Ports.lean), each
true by rfl, so that no later proof unfolds a record update. -/

namespace Sys2Proof.Machine

variable (s : State)


@[simp] theorem writeH_h (x : Vector Word 8) : (writeH x s).h = x := rfl
@[simp] theorem writeH_v (x : Vector Word 8) : (writeH x s).v = s.v := rfl
@[simp] theorem writeH_w (x : Vector Word 8) : (writeH x s).w = s.w := rfl
@[simp] theorem writeH_pb (x : Vector Word 8) : (writeH x s).pb = s.pb := rfl
@[simp] theorem writeH_plen (x : Vector Word 8) : (writeH x s).plen = s.plen := rfl
@[simp] theorem writeH_nblk (x : Vector Word 8) : (writeH x s).nblk = s.nblk := rfl
@[simp] theorem writeH_pbv (x : Vector Word 8) : (writeH x s).pbv = s.pbv := rfl
@[simp] theorem writeH_digest (x : Vector Word 8) : (writeH x s).digest = s.digest := rfl
@[simp] theorem writeH_len (x : Vector Word 8) : (writeH x s).len = s.len := rfl
@[simp] theorem writeH_mv (x : Vector Word 8) : (writeH x s).mv = s.mv := rfl
@[simp] theorem writeH_blk (x : Vector Word 8) : (writeH x s).blk = s.blk := rfl
@[simp] theorem writeH_upc (x : Vector Word 8) : (writeH x s).upc = s.upc := rfl
@[simp] theorem writeH_busy (x : Vector Word 8) : (writeH x s).busy = s.busy := rfl
@[simp] theorem writeH_done (x : Vector Word 8) : (writeH x s).done = s.done := rfl
@[simp] theorem writeH_dvalid (x : Vector Word 8) : (writeH x s).dvalid = s.dvalid := rfl
@[simp] theorem writeH_err (x : Vector Word 8) : (writeH x s).err = s.err := rfl
@[simp] theorem writeH_msg (x : Vector Word 8) : (writeH x s).msg = s.msg := rfl
@[simp] theorem writeH_capExtra (x : Vector Word 8) : (writeH x s).capExtra = s.capExtra := rfl
@[simp] theorem writeH_inputs (x : Vector Word 8) : (writeH x s).inputs = s.inputs := rfl
@[simp] theorem writeH_draws (x : Vector Word 8) : (writeH x s).draws = s.draws := rfl
@[simp] theorem writeH_pbCap (x : Vector Word 8) : (writeH x s).pbCap = s.pbCap := rfl

@[simp] theorem writeV_h (x : Vector Word 8) : (writeV x s).h = s.h := rfl
@[simp] theorem writeV_v (x : Vector Word 8) : (writeV x s).v = x := rfl
@[simp] theorem writeV_w (x : Vector Word 8) : (writeV x s).w = s.w := rfl
@[simp] theorem writeV_pb (x : Vector Word 8) : (writeV x s).pb = s.pb := rfl
@[simp] theorem writeV_plen (x : Vector Word 8) : (writeV x s).plen = s.plen := rfl
@[simp] theorem writeV_nblk (x : Vector Word 8) : (writeV x s).nblk = s.nblk := rfl
@[simp] theorem writeV_pbv (x : Vector Word 8) : (writeV x s).pbv = s.pbv := rfl
@[simp] theorem writeV_digest (x : Vector Word 8) : (writeV x s).digest = s.digest := rfl
@[simp] theorem writeV_len (x : Vector Word 8) : (writeV x s).len = s.len := rfl
@[simp] theorem writeV_mv (x : Vector Word 8) : (writeV x s).mv = s.mv := rfl
@[simp] theorem writeV_blk (x : Vector Word 8) : (writeV x s).blk = s.blk := rfl
@[simp] theorem writeV_upc (x : Vector Word 8) : (writeV x s).upc = s.upc := rfl
@[simp] theorem writeV_busy (x : Vector Word 8) : (writeV x s).busy = s.busy := rfl
@[simp] theorem writeV_done (x : Vector Word 8) : (writeV x s).done = s.done := rfl
@[simp] theorem writeV_dvalid (x : Vector Word 8) : (writeV x s).dvalid = s.dvalid := rfl
@[simp] theorem writeV_err (x : Vector Word 8) : (writeV x s).err = s.err := rfl
@[simp] theorem writeV_msg (x : Vector Word 8) : (writeV x s).msg = s.msg := rfl
@[simp] theorem writeV_capExtra (x : Vector Word 8) : (writeV x s).capExtra = s.capExtra := rfl
@[simp] theorem writeV_inputs (x : Vector Word 8) : (writeV x s).inputs = s.inputs := rfl
@[simp] theorem writeV_draws (x : Vector Word 8) : (writeV x s).draws = s.draws := rfl
@[simp] theorem writeV_pbCap (x : Vector Word 8) : (writeV x s).pbCap = s.pbCap := rfl

@[simp] theorem writeW_h (i : Fin 64) (x : Word) : (writeW i x s).h = s.h := rfl
@[simp] theorem writeW_v (i : Fin 64) (x : Word) : (writeW i x s).v = s.v := rfl
@[simp] theorem writeW_w (i : Fin 64) (x : Word) : (writeW i x s).w = s.w.set i x := rfl
@[simp] theorem writeW_pb (i : Fin 64) (x : Word) : (writeW i x s).pb = s.pb := rfl
@[simp] theorem writeW_plen (i : Fin 64) (x : Word) : (writeW i x s).plen = s.plen := rfl
@[simp] theorem writeW_nblk (i : Fin 64) (x : Word) : (writeW i x s).nblk = s.nblk := rfl
@[simp] theorem writeW_pbv (i : Fin 64) (x : Word) : (writeW i x s).pbv = s.pbv := rfl
@[simp] theorem writeW_digest (i : Fin 64) (x : Word) : (writeW i x s).digest = s.digest := rfl
@[simp] theorem writeW_len (i : Fin 64) (x : Word) : (writeW i x s).len = s.len := rfl
@[simp] theorem writeW_mv (i : Fin 64) (x : Word) : (writeW i x s).mv = s.mv := rfl
@[simp] theorem writeW_blk (i : Fin 64) (x : Word) : (writeW i x s).blk = s.blk := rfl
@[simp] theorem writeW_upc (i : Fin 64) (x : Word) : (writeW i x s).upc = s.upc := rfl
@[simp] theorem writeW_busy (i : Fin 64) (x : Word) : (writeW i x s).busy = s.busy := rfl
@[simp] theorem writeW_done (i : Fin 64) (x : Word) : (writeW i x s).done = s.done := rfl
@[simp] theorem writeW_dvalid (i : Fin 64) (x : Word) : (writeW i x s).dvalid = s.dvalid := rfl
@[simp] theorem writeW_err (i : Fin 64) (x : Word) : (writeW i x s).err = s.err := rfl
@[simp] theorem writeW_msg (i : Fin 64) (x : Word) : (writeW i x s).msg = s.msg := rfl
@[simp] theorem writeW_capExtra (i : Fin 64) (x : Word) : (writeW i x s).capExtra = s.capExtra := rfl
@[simp] theorem writeW_inputs (i : Fin 64) (x : Word) : (writeW i x s).inputs = s.inputs := rfl
@[simp] theorem writeW_draws (i : Fin 64) (x : Word) : (writeW i x s).draws = s.draws := rfl
@[simp] theorem writeW_pbCap (i : Fin 64) (x : Word) : (writeW i x s).pbCap = s.pbCap := rfl

@[simp] theorem writeDigest_h (x : Vector Byte 32) : (writeDigest x s).h = s.h := rfl
@[simp] theorem writeDigest_v (x : Vector Byte 32) : (writeDigest x s).v = s.v := rfl
@[simp] theorem writeDigest_w (x : Vector Byte 32) : (writeDigest x s).w = s.w := rfl
@[simp] theorem writeDigest_pb (x : Vector Byte 32) : (writeDigest x s).pb = s.pb := rfl
@[simp] theorem writeDigest_plen (x : Vector Byte 32) : (writeDigest x s).plen = s.plen := rfl
@[simp] theorem writeDigest_nblk (x : Vector Byte 32) : (writeDigest x s).nblk = s.nblk := rfl
@[simp] theorem writeDigest_pbv (x : Vector Byte 32) : (writeDigest x s).pbv = s.pbv := rfl
@[simp] theorem writeDigest_digest (x : Vector Byte 32) : (writeDigest x s).digest = some x := rfl
@[simp] theorem writeDigest_len (x : Vector Byte 32) : (writeDigest x s).len = s.len := rfl
@[simp] theorem writeDigest_mv (x : Vector Byte 32) : (writeDigest x s).mv = s.mv := rfl
@[simp] theorem writeDigest_blk (x : Vector Byte 32) : (writeDigest x s).blk = s.blk := rfl
@[simp] theorem writeDigest_upc (x : Vector Byte 32) : (writeDigest x s).upc = s.upc := rfl
@[simp] theorem writeDigest_busy (x : Vector Byte 32) : (writeDigest x s).busy = s.busy := rfl
@[simp] theorem writeDigest_done (x : Vector Byte 32) : (writeDigest x s).done = s.done := rfl
@[simp] theorem writeDigest_dvalid (x : Vector Byte 32) : (writeDigest x s).dvalid = s.dvalid := rfl
@[simp] theorem writeDigest_err (x : Vector Byte 32) : (writeDigest x s).err = s.err := rfl
@[simp] theorem writeDigest_msg (x : Vector Byte 32) : (writeDigest x s).msg = s.msg := rfl
@[simp] theorem writeDigest_capExtra (x : Vector Byte 32) : (writeDigest x s).capExtra = s.capExtra := rfl
@[simp] theorem writeDigest_inputs (x : Vector Byte 32) : (writeDigest x s).inputs = s.inputs := rfl
@[simp] theorem writeDigest_draws (x : Vector Byte 32) : (writeDigest x s).draws = s.draws := rfl
@[simp] theorem writeDigest_pbCap (x : Vector Byte 32) : (writeDigest x s).pbCap = s.pbCap := rfl

@[simp] theorem advance_h : (advance s).h = s.h := rfl
@[simp] theorem advance_v : (advance s).v = s.v := rfl
@[simp] theorem advance_w : (advance s).w = s.w := rfl
@[simp] theorem advance_pb : (advance s).pb = s.pb := rfl
@[simp] theorem advance_plen : (advance s).plen = s.plen := rfl
@[simp] theorem advance_nblk : (advance s).nblk = s.nblk := rfl
@[simp] theorem advance_pbv : (advance s).pbv = s.pbv := rfl
@[simp] theorem advance_digest : (advance s).digest = s.digest := rfl
@[simp] theorem advance_len : (advance s).len = s.len := rfl
@[simp] theorem advance_mv : (advance s).mv = s.mv := rfl
@[simp] theorem advance_blk : (advance s).blk = s.blk := rfl
@[simp] theorem advance_upc : (advance s).upc = s.upc + 1 := rfl
@[simp] theorem advance_busy : (advance s).busy = s.busy := rfl
@[simp] theorem advance_done : (advance s).done = s.done := rfl
@[simp] theorem advance_dvalid : (advance s).dvalid = s.dvalid := rfl
@[simp] theorem advance_err : (advance s).err = s.err := rfl
@[simp] theorem advance_msg : (advance s).msg = s.msg := rfl
@[simp] theorem advance_capExtra : (advance s).capExtra = s.capExtra := rfl
@[simp] theorem advance_inputs : (advance s).inputs = s.inputs := rfl
@[simp] theorem advance_draws : (advance s).draws = s.draws := rfl
@[simp] theorem advance_pbCap : (advance s).pbCap = s.pbCap := rfl

@[simp] theorem jump_h (u : BitVec 8) : (jump u s).h = s.h := rfl
@[simp] theorem jump_v (u : BitVec 8) : (jump u s).v = s.v := rfl
@[simp] theorem jump_w (u : BitVec 8) : (jump u s).w = s.w := rfl
@[simp] theorem jump_pb (u : BitVec 8) : (jump u s).pb = s.pb := rfl
@[simp] theorem jump_plen (u : BitVec 8) : (jump u s).plen = s.plen := rfl
@[simp] theorem jump_nblk (u : BitVec 8) : (jump u s).nblk = s.nblk := rfl
@[simp] theorem jump_pbv (u : BitVec 8) : (jump u s).pbv = s.pbv := rfl
@[simp] theorem jump_digest (u : BitVec 8) : (jump u s).digest = s.digest := rfl
@[simp] theorem jump_len (u : BitVec 8) : (jump u s).len = s.len := rfl
@[simp] theorem jump_mv (u : BitVec 8) : (jump u s).mv = s.mv := rfl
@[simp] theorem jump_blk (u : BitVec 8) : (jump u s).blk = s.blk := rfl
@[simp] theorem jump_upc (u : BitVec 8) : (jump u s).upc = u := rfl
@[simp] theorem jump_busy (u : BitVec 8) : (jump u s).busy = s.busy := rfl
@[simp] theorem jump_done (u : BitVec 8) : (jump u s).done = s.done := rfl
@[simp] theorem jump_dvalid (u : BitVec 8) : (jump u s).dvalid = s.dvalid := rfl
@[simp] theorem jump_err (u : BitVec 8) : (jump u s).err = s.err := rfl
@[simp] theorem jump_msg (u : BitVec 8) : (jump u s).msg = s.msg := rfl
@[simp] theorem jump_capExtra (u : BitVec 8) : (jump u s).capExtra = s.capExtra := rfl
@[simp] theorem jump_inputs (u : BitVec 8) : (jump u s).inputs = s.inputs := rfl
@[simp] theorem jump_draws (u : BitVec 8) : (jump u s).draws = s.draws := rfl
@[simp] theorem jump_pbCap (u : BitVec 8) : (jump u s).pbCap = s.pbCap := rfl

@[simp] theorem writeBlk_h (b : Len) : (writeBlk b s).h = s.h := rfl
@[simp] theorem writeBlk_v (b : Len) : (writeBlk b s).v = s.v := rfl
@[simp] theorem writeBlk_w (b : Len) : (writeBlk b s).w = s.w := rfl
@[simp] theorem writeBlk_pb (b : Len) : (writeBlk b s).pb = s.pb := rfl
@[simp] theorem writeBlk_plen (b : Len) : (writeBlk b s).plen = s.plen := rfl
@[simp] theorem writeBlk_nblk (b : Len) : (writeBlk b s).nblk = s.nblk := rfl
@[simp] theorem writeBlk_pbv (b : Len) : (writeBlk b s).pbv = s.pbv := rfl
@[simp] theorem writeBlk_digest (b : Len) : (writeBlk b s).digest = s.digest := rfl
@[simp] theorem writeBlk_len (b : Len) : (writeBlk b s).len = s.len := rfl
@[simp] theorem writeBlk_mv (b : Len) : (writeBlk b s).mv = s.mv := rfl
@[simp] theorem writeBlk_blk (b : Len) : (writeBlk b s).blk = b := rfl
@[simp] theorem writeBlk_upc (b : Len) : (writeBlk b s).upc = s.upc := rfl
@[simp] theorem writeBlk_busy (b : Len) : (writeBlk b s).busy = s.busy := rfl
@[simp] theorem writeBlk_done (b : Len) : (writeBlk b s).done = s.done := rfl
@[simp] theorem writeBlk_dvalid (b : Len) : (writeBlk b s).dvalid = s.dvalid := rfl
@[simp] theorem writeBlk_err (b : Len) : (writeBlk b s).err = s.err := rfl
@[simp] theorem writeBlk_msg (b : Len) : (writeBlk b s).msg = s.msg := rfl
@[simp] theorem writeBlk_capExtra (b : Len) : (writeBlk b s).capExtra = s.capExtra := rfl
@[simp] theorem writeBlk_inputs (b : Len) : (writeBlk b s).inputs = s.inputs := rfl
@[simp] theorem writeBlk_draws (b : Len) : (writeBlk b s).draws = s.draws := rfl
@[simp] theorem writeBlk_pbCap (b : Len) : (writeBlk b s).pbCap = s.pbCap := rfl

@[simp] theorem release_h : (release s).h = s.h := rfl
@[simp] theorem release_v : (release s).v = s.v := rfl
@[simp] theorem release_w : (release s).w = s.w := rfl
@[simp] theorem release_pb : (release s).pb = [] := rfl
@[simp] theorem release_plen : (release s).plen = 0 := rfl
@[simp] theorem release_nblk : (release s).nblk = 0 := rfl
@[simp] theorem release_pbv : (release s).pbv = false := rfl
@[simp] theorem release_digest : (release s).digest = s.digest := rfl
@[simp] theorem release_len : (release s).len = s.len := rfl
@[simp] theorem release_mv : (release s).mv = s.mv := rfl
@[simp] theorem release_blk : (release s).blk = s.blk := rfl
@[simp] theorem release_upc : (release s).upc = s.upc := rfl
@[simp] theorem release_busy : (release s).busy = s.busy := rfl
@[simp] theorem release_done : (release s).done = s.done := rfl
@[simp] theorem release_dvalid : (release s).dvalid = s.dvalid := rfl
@[simp] theorem release_err : (release s).err = s.err := rfl
@[simp] theorem release_msg : (release s).msg = s.msg := rfl
@[simp] theorem release_capExtra : (release s).capExtra = s.capExtra := rfl
@[simp] theorem release_inputs : (release s).inputs = s.inputs := rfl
@[simp] theorem release_draws : (release s).draws = s.draws + 1 := rfl
@[simp] theorem release_pbCap : (release s).pbCap = s.pbCap := rfl

@[simp] theorem clearDigest_h : (clearDigest s).h = s.h := rfl
@[simp] theorem clearDigest_v : (clearDigest s).v = s.v := rfl
@[simp] theorem clearDigest_w : (clearDigest s).w = s.w := rfl
@[simp] theorem clearDigest_pb : (clearDigest s).pb = s.pb := rfl
@[simp] theorem clearDigest_plen : (clearDigest s).plen = s.plen := rfl
@[simp] theorem clearDigest_nblk : (clearDigest s).nblk = s.nblk := rfl
@[simp] theorem clearDigest_pbv : (clearDigest s).pbv = s.pbv := rfl
@[simp] theorem clearDigest_digest : (clearDigest s).digest = none := rfl
@[simp] theorem clearDigest_len : (clearDigest s).len = s.len := rfl
@[simp] theorem clearDigest_mv : (clearDigest s).mv = s.mv := rfl
@[simp] theorem clearDigest_blk : (clearDigest s).blk = s.blk := rfl
@[simp] theorem clearDigest_upc : (clearDigest s).upc = s.upc := rfl
@[simp] theorem clearDigest_busy : (clearDigest s).busy = s.busy := rfl
@[simp] theorem clearDigest_done : (clearDigest s).done = s.done := rfl
@[simp] theorem clearDigest_dvalid : (clearDigest s).dvalid = s.dvalid := rfl
@[simp] theorem clearDigest_err : (clearDigest s).err = s.err := rfl
@[simp] theorem clearDigest_msg : (clearDigest s).msg = s.msg := rfl
@[simp] theorem clearDigest_capExtra : (clearDigest s).capExtra = s.capExtra := rfl
@[simp] theorem clearDigest_inputs : (clearDigest s).inputs = s.inputs := rfl
@[simp] theorem clearDigest_draws : (clearDigest s).draws = s.draws := rfl
@[simp] theorem clearDigest_pbCap : (clearDigest s).pbCap = s.pbCap := rfl

@[simp] theorem flagsStart_h : (flagsStart s).h = s.h := rfl
@[simp] theorem flagsStart_v : (flagsStart s).v = s.v := rfl
@[simp] theorem flagsStart_w : (flagsStart s).w = s.w := rfl
@[simp] theorem flagsStart_pb : (flagsStart s).pb = s.pb := rfl
@[simp] theorem flagsStart_plen : (flagsStart s).plen = s.plen := rfl
@[simp] theorem flagsStart_nblk : (flagsStart s).nblk = s.nblk := rfl
@[simp] theorem flagsStart_pbv : (flagsStart s).pbv = s.pbv := rfl
@[simp] theorem flagsStart_digest : (flagsStart s).digest = s.digest := rfl
@[simp] theorem flagsStart_len : (flagsStart s).len = s.len := rfl
@[simp] theorem flagsStart_mv : (flagsStart s).mv = s.mv := rfl
@[simp] theorem flagsStart_blk : (flagsStart s).blk = s.blk := rfl
@[simp] theorem flagsStart_upc : (flagsStart s).upc = s.upc := rfl
@[simp] theorem flagsStart_busy : (flagsStart s).busy = true := rfl
@[simp] theorem flagsStart_done : (flagsStart s).done = false := rfl
@[simp] theorem flagsStart_dvalid : (flagsStart s).dvalid = false := rfl
@[simp] theorem flagsStart_err : (flagsStart s).err = 0 := rfl
@[simp] theorem flagsStart_msg : (flagsStart s).msg = s.msg := rfl
@[simp] theorem flagsStart_capExtra : (flagsStart s).capExtra = s.capExtra := rfl
@[simp] theorem flagsStart_inputs : (flagsStart s).inputs = s.inputs := rfl
@[simp] theorem flagsStart_draws : (flagsStart s).draws = s.draws := rfl
@[simp] theorem flagsStart_pbCap : (flagsStart s).pbCap = s.pbCap := rfl

@[simp] theorem flagsEnd_h : (flagsEnd s).h = s.h := rfl
@[simp] theorem flagsEnd_v : (flagsEnd s).v = s.v := rfl
@[simp] theorem flagsEnd_w : (flagsEnd s).w = s.w := rfl
@[simp] theorem flagsEnd_pb : (flagsEnd s).pb = s.pb := rfl
@[simp] theorem flagsEnd_plen : (flagsEnd s).plen = s.plen := rfl
@[simp] theorem flagsEnd_nblk : (flagsEnd s).nblk = s.nblk := rfl
@[simp] theorem flagsEnd_pbv : (flagsEnd s).pbv = s.pbv := rfl
@[simp] theorem flagsEnd_digest : (flagsEnd s).digest = s.digest := rfl
@[simp] theorem flagsEnd_len : (flagsEnd s).len = s.len := rfl
@[simp] theorem flagsEnd_mv : (flagsEnd s).mv = s.mv := rfl
@[simp] theorem flagsEnd_blk : (flagsEnd s).blk = s.blk := rfl
@[simp] theorem flagsEnd_upc : (flagsEnd s).upc = s.upc := rfl
@[simp] theorem flagsEnd_busy : (flagsEnd s).busy = false := rfl
@[simp] theorem flagsEnd_done : (flagsEnd s).done = true := rfl
@[simp] theorem flagsEnd_dvalid : (flagsEnd s).dvalid = true := rfl
@[simp] theorem flagsEnd_err : (flagsEnd s).err = s.err := rfl
@[simp] theorem flagsEnd_msg : (flagsEnd s).msg = s.msg := rfl
@[simp] theorem flagsEnd_capExtra : (flagsEnd s).capExtra = s.capExtra := rfl
@[simp] theorem flagsEnd_inputs : (flagsEnd s).inputs = s.inputs := rfl
@[simp] theorem flagsEnd_draws : (flagsEnd s).draws = s.draws := rfl
@[simp] theorem flagsEnd_pbCap : (flagsEnd s).pbCap = s.pbCap := rfl

@[simp] theorem flagsError_h (e : ErrorKind) : (flagsError e s).h = s.h := rfl
@[simp] theorem flagsError_v (e : ErrorKind) : (flagsError e s).v = s.v := rfl
@[simp] theorem flagsError_w (e : ErrorKind) : (flagsError e s).w = s.w := rfl
@[simp] theorem flagsError_pb (e : ErrorKind) : (flagsError e s).pb = s.pb := rfl
@[simp] theorem flagsError_plen (e : ErrorKind) : (flagsError e s).plen = s.plen := rfl
@[simp] theorem flagsError_nblk (e : ErrorKind) : (flagsError e s).nblk = s.nblk := rfl
@[simp] theorem flagsError_pbv (e : ErrorKind) : (flagsError e s).pbv = s.pbv := rfl
@[simp] theorem flagsError_digest (e : ErrorKind) : (flagsError e s).digest = s.digest := rfl
@[simp] theorem flagsError_len (e : ErrorKind) : (flagsError e s).len = s.len := rfl
@[simp] theorem flagsError_mv (e : ErrorKind) : (flagsError e s).mv = s.mv := rfl
@[simp] theorem flagsError_blk (e : ErrorKind) : (flagsError e s).blk = s.blk := rfl
@[simp] theorem flagsError_upc (e : ErrorKind) : (flagsError e s).upc = s.upc := rfl
@[simp] theorem flagsError_busy (e : ErrorKind) : (flagsError e s).busy = false := rfl
@[simp] theorem flagsError_done (e : ErrorKind) : (flagsError e s).done = true := rfl
@[simp] theorem flagsError_dvalid (e : ErrorKind) : (flagsError e s).dvalid = false := rfl
@[simp] theorem flagsError_err (e : ErrorKind) : (flagsError e s).err = errCode e := rfl
@[simp] theorem flagsError_msg (e : ErrorKind) : (flagsError e s).msg = s.msg := rfl
@[simp] theorem flagsError_capExtra (e : ErrorKind) : (flagsError e s).capExtra = s.capExtra := rfl
@[simp] theorem flagsError_inputs (e : ErrorKind) : (flagsError e s).inputs = s.inputs := rfl
@[simp] theorem flagsError_draws (e : ErrorKind) : (flagsError e s).draws = s.draws := rfl
@[simp] theorem flagsError_pbCap (e : ErrorKind) : (flagsError e s).pbCap = s.pbCap := rfl

@[simp] theorem commitBuffer_h (m : Memory) (n : Nat) : (commitBuffer m n s).h = s.h := rfl
@[simp] theorem commitBuffer_v (m : Memory) (n : Nat) : (commitBuffer m n s).v = s.v := rfl
@[simp] theorem commitBuffer_w (m : Memory) (n : Nat) : (commitBuffer m n s).w = s.w := rfl
@[simp] theorem commitBuffer_pb (m : Memory) (n : Nat) : (commitBuffer m n s).pb = m := rfl
@[simp] theorem commitBuffer_plen (m : Memory) (n : Nat) : (commitBuffer m n s).plen = BitVec.ofNat 64 n := rfl
@[simp] theorem commitBuffer_nblk (m : Memory) (n : Nat) : (commitBuffer m n s).nblk = BitVec.ofNat 64 (n / 64) := rfl
@[simp] theorem commitBuffer_pbv (m : Memory) (n : Nat) : (commitBuffer m n s).pbv = true := rfl
@[simp] theorem commitBuffer_digest (m : Memory) (n : Nat) : (commitBuffer m n s).digest = s.digest := rfl
@[simp] theorem commitBuffer_len (m : Memory) (n : Nat) : (commitBuffer m n s).len = s.len := rfl
@[simp] theorem commitBuffer_mv (m : Memory) (n : Nat) : (commitBuffer m n s).mv = s.mv := rfl
@[simp] theorem commitBuffer_blk (m : Memory) (n : Nat) : (commitBuffer m n s).blk = s.blk := rfl
@[simp] theorem commitBuffer_upc (m : Memory) (n : Nat) : (commitBuffer m n s).upc = s.upc := rfl
@[simp] theorem commitBuffer_busy (m : Memory) (n : Nat) : (commitBuffer m n s).busy = s.busy := rfl
@[simp] theorem commitBuffer_done (m : Memory) (n : Nat) : (commitBuffer m n s).done = s.done := rfl
@[simp] theorem commitBuffer_dvalid (m : Memory) (n : Nat) : (commitBuffer m n s).dvalid = s.dvalid := rfl
@[simp] theorem commitBuffer_err (m : Memory) (n : Nat) : (commitBuffer m n s).err = s.err := rfl
@[simp] theorem commitBuffer_msg (m : Memory) (n : Nat) : (commitBuffer m n s).msg = s.msg := rfl
@[simp] theorem commitBuffer_capExtra (m : Memory) (n : Nat) : (commitBuffer m n s).capExtra = s.capExtra := rfl
@[simp] theorem commitBuffer_inputs (m : Memory) (n : Nat) : (commitBuffer m n s).inputs = s.inputs := rfl
@[simp] theorem commitBuffer_draws (m : Memory) (n : Nat) : (commitBuffer m n s).draws = s.draws := rfl
@[simp] theorem commitBuffer_pbCap (m : Memory) (n : Nat) : (commitBuffer m n s).pbCap = s.pbCap := rfl

@[simp] theorem takeSample_h : (takeSample s).h = s.h := rfl
@[simp] theorem takeSample_v : (takeSample s).v = s.v := rfl
@[simp] theorem takeSample_w : (takeSample s).w = s.w := rfl
@[simp] theorem takeSample_pb : (takeSample s).pb = s.pb := rfl
@[simp] theorem takeSample_plen : (takeSample s).plen = s.plen := rfl
@[simp] theorem takeSample_nblk : (takeSample s).nblk = s.nblk := rfl
@[simp] theorem takeSample_pbv : (takeSample s).pbv = s.pbv := rfl
@[simp] theorem takeSample_digest : (takeSample s).digest = s.digest := rfl
@[simp] theorem takeSample_len : (takeSample s).len = s.len := rfl
@[simp] theorem takeSample_mv : (takeSample s).mv = s.mv := rfl
@[simp] theorem takeSample_blk : (takeSample s).blk = s.blk := rfl
@[simp] theorem takeSample_upc : (takeSample s).upc = s.upc := rfl
@[simp] theorem takeSample_busy : (takeSample s).busy = s.busy := rfl
@[simp] theorem takeSample_done : (takeSample s).done = s.done := rfl
@[simp] theorem takeSample_dvalid : (takeSample s).dvalid = s.dvalid := rfl
@[simp] theorem takeSample_err : (takeSample s).err = s.err := rfl
@[simp] theorem takeSample_msg : (takeSample s).msg = s.msg := rfl
@[simp] theorem takeSample_capExtra : (takeSample s).capExtra = s.capExtra := rfl
@[simp] theorem takeSample_inputs : (takeSample s).inputs = s.inputs.tail := rfl
@[simp] theorem takeSample_draws : (takeSample s).draws = s.draws := rfl
@[simp] theorem takeSample_pbCap : (takeSample s).pbCap = s.pbCap := rfl

@[simp] theorem raise_h (e : ErrorKind) : (raise e s).h = s.h := rfl
@[simp] theorem raise_v (e : ErrorKind) : (raise e s).v = s.v := rfl
@[simp] theorem raise_w (e : ErrorKind) : (raise e s).w = s.w := rfl
@[simp] theorem raise_pb (e : ErrorKind) : (raise e s).pb = [] := rfl
@[simp] theorem raise_plen (e : ErrorKind) : (raise e s).plen = 0 := rfl
@[simp] theorem raise_nblk (e : ErrorKind) : (raise e s).nblk = 0 := rfl
@[simp] theorem raise_pbv (e : ErrorKind) : (raise e s).pbv = false := rfl
@[simp] theorem raise_digest (e : ErrorKind) : (raise e s).digest = none := rfl
@[simp] theorem raise_len (e : ErrorKind) : (raise e s).len = s.len := rfl
@[simp] theorem raise_mv (e : ErrorKind) : (raise e s).mv = s.mv := rfl
@[simp] theorem raise_blk (e : ErrorKind) : (raise e s).blk = s.blk := rfl
@[simp] theorem raise_upc (e : ErrorKind) : (raise e s).upc = 0 := rfl
@[simp] theorem raise_busy (e : ErrorKind) : (raise e s).busy = false := rfl
@[simp] theorem raise_done (e : ErrorKind) : (raise e s).done = true := rfl
@[simp] theorem raise_dvalid (e : ErrorKind) : (raise e s).dvalid = false := rfl
@[simp] theorem raise_err (e : ErrorKind) : (raise e s).err = errCode e := rfl
@[simp] theorem raise_msg (e : ErrorKind) : (raise e s).msg = s.msg := rfl
@[simp] theorem raise_capExtra (e : ErrorKind) : (raise e s).capExtra = s.capExtra := rfl
@[simp] theorem raise_inputs (e : ErrorKind) : (raise e s).inputs = s.inputs := rfl
@[simp] theorem raise_draws (e : ErrorKind) : (raise e s).draws = s.draws + 1 := rfl
@[simp] theorem raise_pbCap (e : ErrorKind) : (raise e s).pbCap = s.pbCap := rfl

@[simp] theorem acceptStart_h (p : PortIn) : (acceptStart p s).h = s.h := rfl
@[simp] theorem acceptStart_v (p : PortIn) : (acceptStart p s).v = s.v := rfl
@[simp] theorem acceptStart_w (p : PortIn) : (acceptStart p s).w = s.w := rfl
@[simp] theorem acceptStart_pb (p : PortIn) : (acceptStart p s).pb = s.pb := rfl
@[simp] theorem acceptStart_plen (p : PortIn) : (acceptStart p s).plen = s.plen := rfl
@[simp] theorem acceptStart_nblk (p : PortIn) : (acceptStart p s).nblk = s.nblk := rfl
@[simp] theorem acceptStart_pbv (p : PortIn) : (acceptStart p s).pbv = s.pbv := rfl
@[simp] theorem acceptStart_digest (p : PortIn) : (acceptStart p s).digest = none := rfl
@[simp] theorem acceptStart_len (p : PortIn) : (acceptStart p s).len = p.len := rfl
@[simp] theorem acceptStart_mv (p : PortIn) : (acceptStart p s).mv = p.msgValid := rfl
@[simp] theorem acceptStart_blk (p : PortIn) : (acceptStart p s).blk = 0 := rfl
@[simp] theorem acceptStart_upc (p : PortIn) : (acceptStart p s).upc = 0 := rfl
@[simp] theorem acceptStart_busy (p : PortIn) : (acceptStart p s).busy = true := rfl
@[simp] theorem acceptStart_done (p : PortIn) : (acceptStart p s).done = false := rfl
@[simp] theorem acceptStart_dvalid (p : PortIn) : (acceptStart p s).dvalid = false := rfl
@[simp] theorem acceptStart_err (p : PortIn) : (acceptStart p s).err = 0 := rfl
@[simp] theorem acceptStart_msg (p : PortIn) : (acceptStart p s).msg = p.msg := rfl
@[simp] theorem acceptStart_capExtra (p : PortIn) : (acceptStart p s).capExtra = s.capExtra := rfl
@[simp] theorem acceptStart_inputs (p : PortIn) : (acceptStart p s).inputs = s.inputs := rfl
@[simp] theorem acceptStart_draws (p : PortIn) : (acceptStart p s).draws = s.draws := rfl
@[simp] theorem acceptStart_pbCap (p : PortIn) : (acceptStart p s).pbCap = s.pbCap := rfl

@[simp] theorem applyReset_h : (applyReset s).h = Config.undefWords (s.draws + 1) 0 8 := rfl
@[simp] theorem applyReset_v : (applyReset s).v = Config.undefWords (s.draws + 1) 8 8 := rfl
@[simp] theorem applyReset_w : (applyReset s).w = Config.undefWords (s.draws + 1) 16 64 := rfl
@[simp] theorem applyReset_pb : (applyReset s).pb = [] := rfl
@[simp] theorem applyReset_plen : (applyReset s).plen = 0 := rfl
@[simp] theorem applyReset_nblk : (applyReset s).nblk = 0 := rfl
@[simp] theorem applyReset_pbv : (applyReset s).pbv = false := rfl
@[simp] theorem applyReset_digest : (applyReset s).digest = none := rfl
@[simp] theorem applyReset_len : (applyReset s).len = 0 := rfl
@[simp] theorem applyReset_mv : (applyReset s).mv = false := rfl
@[simp] theorem applyReset_blk : (applyReset s).blk = 0 := rfl
@[simp] theorem applyReset_upc : (applyReset s).upc = 0 := rfl
@[simp] theorem applyReset_busy : (applyReset s).busy = false := rfl
@[simp] theorem applyReset_done : (applyReset s).done = false := rfl
@[simp] theorem applyReset_dvalid : (applyReset s).dvalid = false := rfl
@[simp] theorem applyReset_err : (applyReset s).err = 0 := rfl
@[simp] theorem applyReset_msg : (applyReset s).msg = s.msg := rfl
@[simp] theorem applyReset_capExtra : (applyReset s).capExtra = s.capExtra := rfl
@[simp] theorem applyReset_inputs : (applyReset s).inputs = s.inputs := rfl
@[simp] theorem applyReset_draws : (applyReset s).draws = s.draws + 1 := rfl
@[simp] theorem applyReset_pbCap : (applyReset s).pbCap = s.pbCap := rfl

end Sys2Proof.Machine
end

