-- ==== Sys2Proof/Laws/Exec.lean ====
section
/-! SUPPORT. One lemma per operation and per micro-operation that says once everything it can do, and the cases of a step. -/

namespace Sys2Proof.Machine

/-! ### The arms of exec -/

@[simp] theorem exec_chk (s : State) : exec .chk s = execChk s := rfl
@[simp] theorem exec_init (s : State) : exec .init s = .next (advance (writeH iv s)) := rfl
@[simp] theorem exec_pad (s : State) : exec .pad s = execPad s := rfl
@[simp] theorem exec_wld (t : BitVec 6) (s : State) : exec (.wld t) s = execWld t s := rfl
@[simp] theorem exec_wex (t : BitVec 6) (s : State) : exec (.wex t) s = execWex t s := rfl
@[simp] theorem exec_vld (s : State) : exec .vld s = .next (advance (writeV s.h s)) := rfl
@[simp] theorem exec_rnd (t : BitVec 6) (s : State) :
    exec (.rnd t) s = .next (advance (writeV (round s.v kTable[index t] (readW s (index t))) s)) := rfl
@[simp] theorem exec_hadd (s : State) : exec .hadd s = .next (blockLoop (writeH (addWords s.h s.v) s)) := rfl
@[simp] theorem exec_ser (s : State) : exec .ser s = .next (advance (writeDigest (bytesOfWords s.h) s)) := rfl
@[simp] theorem exec_rel (s : State) : exec .rel s = .next (jump 0 (flagsEnd (release s))) := rfl

/-- The state after `PAD`, field by field, for any filled buffer `m`. -/
theorem advance_commitBuffer (m : Memory) (plen : Nat) (s : State) :
    advance (commitBuffer m plen s) =
      { s with
        pb := m, plen := BitVec.ofNat 64 plen, nblk := BitVec.ofNat 64 (plen / 64), pbv := true, upc := s.upc + 1 } :=
  rfl

/-! ### What each micro-operation can answer -/

theorem execChk_eq (s : State) : execChk s = .next (if s.mv then advance s else raise .nullInput s) := by
  unfold execChk
  split <;> rfl

/-- Everything the two tests of `PAD` can answer. -/
theorem padError_cases (s : State) :
    (2 ^ 61 ≤ s.len.toNat ∧ padError s = some .inputTooLarge) ∨
    (s.len.toNat < 2 ^ 61 ∧ s.pbCap < padLength s.len.toNat ∧ padError s = some .allocationFailure) ∨
    (s.len.toNat < 2 ^ 61 ∧ padLength s.len.toNat ≤ s.pbCap ∧ padError s = none) := by
  by_cases h1 : 2 ^ 61 ≤ s.len.toNat
  · exact .inl ⟨h1, if_pos h1⟩
  · by_cases h2 : s.pbCap < padLength s.len.toNat
    · exact .inr (.inl ⟨by omega, h2, by rw [padError, if_neg h1, if_pos h2]⟩)
    · exact .inr (.inr ⟨by omega, by omega, by rw [padError, if_neg h1, if_neg h2]⟩)

theorem padReads_of_error {s : State} {e : ErrorKind} (h : padError s = some e) : padReads s = [] := by
  simp only [padReads, h]

theorem padReads_of_none {s : State} (h : padError s = none) : padReads s = msgAddrs s.len.toNat := by
  simp only [padReads, h]

/-- The bytes `PAD` copies are those it asks the message port for. -/
theorem messageBytes_eq {s : State} (h : padError s = none) : messageBytes s = (padReads s).map (msgByte s) := by
  rw [padReads_of_none h, messageBytes]

theorem execPad_cases (s : State) :
    (2 ^ 61 ≤ s.len.toNat ∧ execPad s = .next (raise .inputTooLarge s)) ∨
    (s.len.toNat < 2 ^ 61 ∧ s.pbCap < padLength s.len.toNat ∧ execPad s = .next (raise .allocationFailure s)) ∨
    (s.len.toNat < 2 ^ 61 ∧ padLength s.len.toNat ≤ s.pbCap ∧
      execPad s = .next (advance (commitBuffer (fillBuffer s) (padLength s.len.toNat) s))) := by
  obtain ⟨h1, h⟩ | ⟨h1, h2, h⟩ | ⟨h1, h2, h⟩ := padError_cases s
  · exact .inl ⟨h1, by simp only [execPad, h]⟩
  · exact .inr (.inl ⟨h1, h2, by simp only [execPad, h]⟩)
  · exact .inr (.inr ⟨h1, h2, by simp only [execPad, h]⟩)

theorem execWld_next {t : BitVec 6} {s s' : State} (h : execWld t s = .next s') :
    t.toNat ≤ 15 ∧ wldOffset s.blk t + 3 < s.pbCap ∧
      s' = advance (writeW (index t) (pbWord s (wldOffset s.blk t)) s) := by
  unfold execWld at h
  split at h
  · split at h
    · rename_i h1 h2
      exact ⟨h1, by simpa [pbInside] using h2, by injection h with h; exact h.symm⟩
    · cases h
  · cases h

theorem execWld_eq {t : BitVec 6} {s : State} (h1 : t.toNat ≤ 15) (h2 : wldOffset s.blk t + 3 < s.pbCap) :
    execWld t s = .next (advance (writeW (index t) (pbWord s (wldOffset s.blk t)) s)) := by
  have h3 : pbInside s (wldOffset s.blk t) = true := by simpa [pbInside] using h2
  rw [execWld, if_pos h1, if_pos h3]

theorem execWex_next {t : BitVec 6} {s s' : State} (h : execWex t s = .next s') :
    16 ≤ t.toNat ∧ s' = advance (writeW (index t) (wexWord t s) s) := by
  unfold execWex at h
  split at h
  · rename_i h1
    exact ⟨h1, by injection h with h; exact h.symm⟩
  · cases h

theorem execWex_eq {t : BitVec 6} {s : State} (h : 16 ≤ t.toNat) :
    execWex t s = .next (advance (writeW (index t) (wexWord t s) s)) := by
  rw [execWex, if_pos h]

theorem blockLoop_cases (s : State) :
    (s.blk.toNat + 1 < s.nblk.toNat ∧ blockLoop s = jump slotBlock (writeBlk (s.blk + 1) s)) ∨
    (s.nblk.toNat ≤ s.blk.toNat + 1 ∧ blockLoop s = jump slotSer s) := by
  by_cases h : s.blk.toNat + 1 < s.nblk.toNat
  · exact .inl ⟨h, if_pos h⟩
  · exact .inr ⟨by omega, if_neg h⟩

@[simp] theorem messageBytes_length (s : State) : (messageBytes s).length = s.len.toNat := by
  simp [messageBytes, msgAddrs]

@[simp] theorem bytes64_length (l : BitVec 64) : (bytes64 l).length = 8 := rfl

/-- Every byte of the buffer after the four writes of `PAD`, by the range of its offset. -/
theorem lookup_fillBuffer (s : State) (a : Nat) :
    Memory.lookup (fillBuffer s) a =
      if a < s.len.toNat then some (msgByte s a)
      else if a = s.len.toNat then some 0x80#8
      else if a ≤ s.len.toNat + padZeros s.len.toNat then some 0x00#8
      else if a < padLength s.len.toNat then (bytes64 (bitLength s.len.toNat))[a - (padLength s.len.toNat - 8)]?
      else Memory.lookup s.pb a := by
  have hp : padLength s.len.toNat = s.len.toNat + 1 + padZeros s.len.toNat + 8 := rfl
  simp only [fillBuffer, lookup_writeBytes, bytes64_length, messageBytes_length, List.length_replicate,
    List.length_singleton]
  generalize padLength s.len.toNat = p at *
  generalize padZeros s.len.toNat = z at *
  by_cases h1 : a < s.len.toNat
  · rw [if_neg (by omega), if_neg (by omega), if_neg (by omega), if_pos (by omega), if_pos h1]
    simp [messageBytes, msgAddrs, h1]
  · by_cases h2 : a = s.len.toNat
    · rw [if_neg (by omega), if_neg (by omega), if_pos (by omega), if_neg h1, if_pos h2]
      simp [h2]
    · by_cases h3 : a ≤ s.len.toNat + z
      · rw [if_neg (by omega), if_pos (by omega), if_neg h1, if_neg h2, if_pos h3, List.getElem?_replicate,
          if_pos (by omega)]
      · by_cases h4 : a < p
        · rw [if_pos (by omega), if_neg h1, if_neg h2, if_neg h3, if_pos h4]
        · rw [if_neg (by omega), if_neg (by omega), if_neg (by omega), if_neg (by omega), if_neg h1, if_neg h2,
            if_neg h3, if_neg h4]

/-- The four writes of `PAD` keep the canonical form of the buffer. -/
theorem wf_fillBuffer {s : State} (h : Memory.wf pbUnlisted s.pb = true) :
    Memory.wf pbUnlisted (fillBuffer s) = true :=
  wf_writeBytes _ _ (wf_writeBytes _ _ (wf_writeBytes _ _ (wf_writeBytes _ _ h)))

/-- A byte of `PB` that holds a value is read as that value. -/
theorem pbByte_of_lookup {s : State} {a : Nat} {b : Byte} (h : Memory.lookup s.pb a = some b) : pbByte s a = b := by
  simp [pbByte, h]

/-! ### What a step can do -/

/-- Everything a step that answers a next state can be: a reset, a micro-operation, an accepted `START`, or nothing. -/
theorem step_cases {s s' : State} (h : step s = .next s') :
    ((portSample s).rst = true ∧ s' = applyReset (takeSample s)) ∨
    ((portSample s).rst = false ∧ s.busy = true ∧
      ∃ u i, romWord s.upc.toNat = some u ∧ decode u = .ok i ∧ exec i (takeSample s) = .next s') ∨
    ((portSample s).rst = false ∧ s.busy = false ∧ (portSample s).start = true ∧
      s' = acceptStart (portSample s) (takeSample s)) ∨
    ((portSample s).rst = false ∧ s.busy = false ∧ (portSample s).start = false ∧ s' = takeSample s) := by
  unfold step stepWith at h
  by_cases hr : (portSample s).rst = true
  · rw [if_pos hr] at h
    exact .inl ⟨hr, by injection h with h; exact h.symm⟩
  · have hr' : (portSample s).rst = false := by simpa using hr
    rw [if_neg hr] at h
    by_cases hb : s.busy = true
    · rw [if_pos (by simpa using hb)] at h
      refine .inr (.inl ⟨hr', hb, ?_⟩)
      unfold sequencerStep fetch at h
      simp only [takeSample_upc] at h
      cases hu : romWord s.upc.toNat with
      | none => simp [hu] at h
      | some u =>
        simp only [hu] at h
        cases hi : decode u with
        | error e => simp [hi] at h
        | ok i =>
          simp only [hi] at h
          exact ⟨u, i, rfl, hi, h⟩
    · have hb' : s.busy = false := by simpa using hb
      rw [if_neg (by simpa using hb)] at h
      by_cases hs : (portSample s).start = true
      · rw [if_pos hs] at h
        exact .inr (.inr (.inl ⟨hr', hb', hs, by injection h with h; exact h.symm⟩))
      · rw [if_neg hs] at h
        exact .inr (.inr (.inr ⟨hr', hb', by simpa using hs, by injection h with h; exact h.symm⟩))

/-- What the message port is asked for: nothing, or what the `PAD` that the step performs reads. -/
theorem portMsgAddrs_cases (s : State) :
    portMsgAddrs s = [] ∨
    ((portSample s).rst = false ∧ s.busy = true ∧ romWord s.upc.toNat = some (encode .pad) ∧
      portMsgAddrs s = (padReads s).map (BitVec.ofNat 64)) := by
  unfold portMsgAddrs
  split
  · rename_i h
    exact .inr ⟨h.1, h.2.1, h.2.2, rfl⟩
  · exact .inl rfl

theorem portSample_cons {s : State} {p : PortIn} {ps : List PortIn} (h : s.inputs = p :: ps) : portSample s = p := by
  simp [portSample, h]

theorem portSample_nil {s : State} (h : s.inputs = []) : portSample s = PortIn.rest := by
  simp [portSample, h]

end Sys2Proof.Machine
end

