-- ==== Sys2Proof/Laws/PerInstr.lean ====
section
/-! SUPPORT. A family of statements about the instructions as syntax, one lemma per constructor. -/

namespace Sys2Proof.Laws.EncodedFields

/-- The word of a micro-operation has `Z = 0`, and an `OP` from 1 to 10 (30_encoding.md R71, R72). -/
def Statement (i : Instr) : Prop :=
  fieldZ (encode i) = 0#2 ∧ 1 ≤ (fieldOp (encode i)).toNat ∧ (fieldOp (encode i)).toNat ≤ 10

theorem fieldZ_microWord (op : BitVec 4) (t : BitVec 6) : fieldZ (microWord op t) = 0#2 := by
  have h1 := op.isLt
  have h2 := t.isLt
  apply BitVec.eq_of_toNat_eq
  simp only [fieldZ, microWord, BitVec.extractLsb'_toNat, BitVec.toNat_ofNat, Nat.shiftRight_eq_div_pow]
  omega

theorem fieldOp_microWord (op : BitVec 4) (t : BitVec 6) : fieldOp (microWord op t) = op := by
  have h1 := op.isLt
  have h2 := t.isLt
  apply BitVec.eq_of_toNat_eq
  simp only [fieldOp, microWord, BitVec.extractLsb'_toNat, BitVec.toNat_ofNat, Nat.shiftRight_eq_div_pow]
  omega

theorem fieldT_microWord (op : BitVec 4) (t : BitVec 6) : fieldT (microWord op t) = t := by
  have h1 := op.isLt
  have h2 := t.isLt
  apply BitVec.eq_of_toNat_eq
  simp only [fieldT, microWord, BitVec.extractLsb'_toNat, BitVec.toNat_ofNat, Nat.shiftRight_eq_div_pow]
  omega

theorem of_microWord {i : Instr} (op : BitVec 4) (t : BitVec 6) (h : encode i = microWord op t)
    (h1 : 1 ≤ op.toNat) (h2 : op.toNat ≤ 10) : Statement i := by
  unfold Statement
  rw [h, fieldZ_microWord, fieldOp_microWord]
  exact ⟨rfl, h1, h2⟩

theorem chk : Statement .chk := of_microWord 1#4 0#6 rfl (by decide) (by decide)
theorem init : Statement .init := of_microWord 2#4 0#6 rfl (by decide) (by decide)
theorem pad : Statement .pad := of_microWord 3#4 0#6 rfl (by decide) (by decide)
theorem wld (t : BitVec 6) : Statement (.wld t) := of_microWord 4#4 t rfl (by decide) (by decide)
theorem wex (t : BitVec 6) : Statement (.wex t) := of_microWord 5#4 t rfl (by decide) (by decide)
theorem vld : Statement .vld := of_microWord 6#4 0#6 rfl (by decide) (by decide)
theorem rnd (t : BitVec 6) : Statement (.rnd t) := of_microWord 7#4 t rfl (by decide) (by decide)
theorem hadd : Statement .hadd := of_microWord 8#4 0#6 rfl (by decide) (by decide)
theorem ser : Statement .ser := of_microWord 9#4 0#6 rfl (by decide) (by decide)
theorem rel : Statement .rel := of_microWord 10#4 0#6 rfl (by decide) (by decide)

end Sys2Proof.Laws.EncodedFields
end

