-- ==== Sys2Proof/Tests/Slice0.lean ====
section
/-! SUPPORT. The model's own tests. Expected values are from the spec: 95_test_vectors.md (V), 96_test_programs.md (P) and the
examples of the rules. Then one witness for the hypotheses of each statement. -/

namespace Sys2Proof.Tests

open Sys2Proof.Machine

/-! ### Well-formedness: each check refuses a term -/

/-- 30_encoding.md R72: `WLD` takes 0 to 15. -/
theorem test_wf_wld : (Instr.wld 16#6).wf = false ∧ (Instr.wld 15#6).wf = true := by decide

/-- 30_encoding.md R72: `WEX` takes 16 to 63. -/
theorem test_wf_wex : (Instr.wex 15#6).wf = false ∧ (Instr.wex 16#6).wf = true ∧ (Instr.wex 63#6).wf = true := by decide

/-! ### Decoding: words written out bit by bit as `OP Z T` (30_encoding.md R71, R72) -/

theorem test_decode_chk : decode 0b0001_00_000000#12 = .ok .chk := by decide
theorem test_decode_init : decode 0b0010_00_000000#12 = .ok .init := by decide
theorem test_decode_pad : decode 0b0011_00_000000#12 = .ok .pad := by decide
theorem test_decode_wld : decode 0b0100_00_001101#12 = .ok (.wld 13#6) := by decide
theorem test_decode_wex : decode 0b0101_00_101101#12 = .ok (.wex 45#6) := by decide
theorem test_decode_vld : decode 0b0110_00_000000#12 = .ok .vld := by decide
theorem test_decode_rnd : decode 0b0111_00_110010#12 = .ok (.rnd 50#6) := by decide
theorem test_decode_hadd : decode 0b1000_00_000000#12 = .ok .hadd := by decide
theorem test_decode_ser : decode 0b1001_00_000000#12 = .ok .ser := by decide
theorem test_decode_rel : decode 0b1010_00_000000#12 = .ok .rel := by decide

/-- V42: reserved words, by reason. -/
theorem test_decode_reserved :
    decode 0x000#12 = .error .reservedOp ∧ decode 0x540#12 = .error .reservedZ ∧ decode 0x780#12 = .error .reservedZ ∧
    decode 0xA01#12 = .error .reservedT ∧ decode 0xF3F#12 = .error .reservedOp ∧ decode 0xFFF#12 = .error .reservedZ := by
  decide

/-- The encoder writes the words of 30_encoding.md R72. -/
theorem test_encode : encode (.wld 15#6) = 0x40F#12 ∧ encode (.wex 16#6) = 0x510#12 ∧ encode (.rnd 63#6) = 0x73F#12 := by
  decide

/-- A table word has no bit above its 12. -/
theorem test_table_word :
    decodeTableWord 16 0x53F = some (.wex 63#6) ∧ decodeTableWord 16 0x1100 = none ∧ decodeTableWord 16 0x500 = none := by
  decide

/-- 30_encoding.md R75: the listing, at the edges of its ranges. -/
theorem test_rom :
    romWord 18 = some 0x40F#12 ∧ romWord 19 = some 0x510#12 ∧ romWord 66 = some 0x53F#12 ∧ romWord 68 = some 0x700#12 ∧
    romWord 131 = some 0x73F#12 ∧ romWord 135 = none := by
  decide

/-- 10_state.md R24: the corners of the table. -/
theorem test_k : kTable[0] = 0x428a2f98#32 ∧ kTable[17] = 0xefbe4786#32 ∧ kTable[63] = 0xc67178f2#32 := by decide

/-! ### Word operations (V1 to V5) -/

theorem test_small_sigma :
    smallSigma0 0x12345678#32 = 0xe7fce6ee#32 ∧ smallSigma1 0x12345678#32 = 0xa1f78649#32 ∧
    smallSigma0 0x80000000#32 = 0x11002000#32 ∧ smallSigma1 0xffffffff#32 = 0x003fffff#32 := by decide

theorem test_big_sigma :
    bigSigma0 0x6a09e667#32 = 0xce20b47e#32 ∧ bigSigma1 0x510e527f#32 = 0x3587272b#32 ∧
    bigSigma0 0x00000001#32 = 0x40080400#32 ∧ bigSigma1 0x80000000#32 = 0x02100040#32 := by decide

theorem test_ch_maj :
    ch 0x510e527f#32 0x9b05688c#32 0x1f83d9ab#32 = 0x1f85c98c#32 ∧
    maj 0x510e527f#32 0x9b05688c#32 0x1f83d9ab#32 = 0x1b0758af#32 := by decide

theorem test_rotr_shr :
    rotr 0x12345678#32 25 = 0x1a2b3c09#32 ∧ rotr 0x00000001#32 1 = 0x80000000#32 ∧ shr 0x80000000#32 3 = 0x10000000#32 := by
  decide

theorem test_bytes :
    be32 0x61#8 0x62#8 0x63#8 0x80#8 = 0x61626380#32 ∧ bytes32 0xba7816bf#32 = [0xba#8, 0x78#8, 0x16#8, 0xbf#8] ∧
    bytes64 (bitLength (2 ^ 61 - 1)) = [0xff#8, 0xff#8, 0xff#8, 0xff#8, 0xff#8, 0xff#8, 0xff#8, 0xf8#8] := by decide

/-- V10: `z` and `PLEN` at the boundaries. -/
theorem test_pad_lengths :
    padZeros 0 = 55 ∧ padZeros 55 = 0 ∧ padZeros 56 = 63 ∧ padLength 56 = 128 ∧ padLength 119 = 128 ∧ padLength 120 = 192 ∧
    padLength (2 ^ 61 - 1) = 2 ^ 61 + 64 := by decide

/-! ### Small states -/

/-- An idle core with every hidden register 0, nothing pending, `PB_CAP = 64`. -/
def base : State :=
  { State.reset with h := Vector.replicate 8 0, v := Vector.replicate 8 0, w := Vector.replicate 64 0, capExtra := 0 }

/-- A run in progress, the next micro-operation in the given slot. -/
def busyAt (slot : BitVec 8) : State := { base with busy := true, upc := slot, mv := true }

/-- A run on the message "abc". -/
def abcAt (slot : BitVec 8) : State :=
  { busyAt slot with len := 3, msg := Memory.ofMessage [0x61#8, 0x62#8, 0x63#8] }

/-- The buffer of "abc" (V11), with its registers. -/
def abcPadded (slot : BitVec 8) : State :=
  { abcAt slot with
    pb := (pad [0x61#8, 0x62#8, 0x63#8]).zipIdx.map (fun c => (c.2, c.1)), plen := 64, nblk := 1, pbv := true }

/-- A sample of the ports that starts a run on "abc". -/
def startAbc : PortIn :=
  { rst := false, start := true, msgValid := true, len := 3, msg := Memory.ofMessage [0x61#8, 0x62#8, 0x63#8] }

/-- An idle core, a `START` on "abc" pending. -/
def ready : State := { base with inputs := [startAbc] }

/-- What a test looks at in the state a step answers. -/
def after {α : Type} (r : Result) (f : State → α) : Option α :=
  match r with
  | .next t => some (f t)
  | .fault _ => none
  | .refused _ => none

/-! ### The micro-operations -/

/-- V41: no message, `ERR = 1`. -/
theorem test_chk_null :
    after (exec .chk { busyAt 0 with mv := false }) (fun t => (t.err, t.done, t.busy, t.upc)) = some (1, true, false, 0) := by
  decide

/-- 44_engine.md R162: an empty message is a message. -/
theorem test_chk_empty : after (exec .chk (busyAt 0)) (fun t => (t.err, t.busy, t.upc)) = some (0, true, 1) := by decide

/-- P1, after slot 1. -/
theorem test_init : after (exec .init (busyAt 1)) (fun t => (t.h[0], t.h[7], t.upc)) = some (0x6a09e667, 0x5be0cd19, 2) := by
  decide

/-- V11: the buffer of "abc", around the marker and at the length field. -/
theorem test_pad_abc :
    after (exec .pad (abcAt 2)) (fun t =>
      ([0, 2, 3, 4, 62, 63, 64].map (Memory.lookup t.pb), t.plen, t.nblk, t.pbv)) =
      some ([some 0x61, some 0x63, some 0x80, some 0, some 0, some 0x18, none], 64, 1, true) := by
  decide

/-- V12: `LEN = 56` does not fit 64 bytes; `2^61 - 1` does not fit `2^61`; `2^61` is too large whatever the capacity. -/
theorem test_pad_errors :
    after (exec .pad { busyAt 2 with len := 56 }) (fun t => (t.err, t.busy)) = some (2, false) ∧
    after (exec .pad { busyAt 2 with len := BitVec.ofNat 64 (2 ^ 61 - 1), capExtra := 2 ^ 55 - 1 }) (fun t => t.err) = some 2 ∧
    after (exec .pad { busyAt 2 with len := BitVec.ofNat 64 (2 ^ 61) }) (fun t => t.err) = some 3 := by
  decide

/-- 10_state.md R34: "abc" is asked for byte by byte; 60_exceptions.md R192, R193: nothing is read when `PAD` raises. -/
theorem test_msg_addr :
    portMsgAddrs (abcAt 2) = [0, 1, 2] ∧ portMsgAddrs { busyAt 2 with len := 56 } = [] ∧
    portMsgAddrs { busyAt 2 with len := BitVec.ofNat 64 (2 ^ 61) } = [] ∧ portMsgAddrs (abcAt 3) = [] := by decide

/-- P1, slots 3 and 18. -/
theorem test_wld :
    after (exec (.wld 0#6) (abcPadded 3)) (fun t => (t.w[0], t.upc)) = some (0x61626380, 4) ∧
    after (exec (.wld 15#6) (abcPadded 18)) (fun t => (t.w[15], t.w[14], t.upc)) = some (0x18, 0, 19) := by
  decide

/-- Outside the `PB_CAP` bytes there is no byte to read (log 10). -/
theorem test_wld_outside : exec (.wld 0#6) { abcPadded 3 with blk := 1 } = .fault .pbOutside := by rfl

/-- 42_scheduler.md R132: `W[15] = 0x18` gives `W[17] = 0x000f0000`; and V23. -/
theorem test_wex :
    after (exec (.wex 17#6) { busyAt 20 with w := base.w.set 15 0x18 }) (fun t => (t.w[17], t.upc)) =
      some (0x000f0000, 21) ∧
    after (exec (.wex 16#6) { busyAt 19 with w := Vector.replicate 64 0xffffffff }) (fun t => t.w[16]) = some 0x203ffffc := by
  decide

/-- P1, slot 67. -/
theorem test_vld : after (exec .vld { busyAt 67 with h := iv }) (fun t => (t.v == iv, t.upc)) = some (true, 68) := by decide

/-- V30, rounds 0 and 1. -/
theorem test_rnd :
    after (exec (.rnd 0#6) { busyAt 68 with v := iv, w := base.w.set 0 0x61626380 }) (fun t => (t.v.toList, t.upc)) =
      some ([0x5d6aebcd, 0x6a09e667, 0xbb67ae85, 0x3c6ef372, 0xfa2a4622, 0x510e527f, 0x9b05688c, 0x1f83d9ab], 69) ∧
    after (exec (.rnd 1#6) { busyAt 69 with
      v := #v[0x5d6aebcd, 0x6a09e667, 0xbb67ae85, 0x3c6ef372, 0xfa2a4622, 0x510e527f, 0x9b05688c, 0x1f83d9ab] })
      (fun t => (t.v[0], t.v[4])) = some (0x5a6ad9ad, 0x78ce7989) := by
  decide

/-- 43_compressor.md R143: the carry of `H[1]` is dropped; P2: with two blocks the loop is taken. -/
theorem test_hadd :
    after (exec .hadd { abcPadded 132 with h := iv, v := #v[0x506e3058, 0xd39a2165, 0, 0, 0, 0, 0, 0x961f4894] })
      (fun t => (t.h[0], t.h[1], t.h[7], t.blk, t.upc)) = some (0xba7816bf, 0x8f01cfea, 0xf20015ad, 0, 133) ∧
    after (exec .hadd { abcPadded 132 with nblk := 2 }) (fun t => (t.blk, t.upc)) = some (1, 3) := by
  decide

/-- 44_engine.md R164. -/
theorem test_ser :
    after (exec .ser { abcPadded 133 with h := #v[0xba7816bf, 0, 0, 0, 0, 0, 0, 0xf20015ad] }) (fun t =>
      (t.digest.map (fun d => (d.toList.take 4, d.toList.drop 28)), t.dvalid, t.upc)) =
      some (some ([0xba, 0x78, 0x16, 0xbf], [0xf2, 0x00, 0x15, 0xad]), false, 134) := by
  decide

/-- P1, slot 134. -/
theorem test_rel :
    after (exec .rel (abcPadded 134)) (fun t => (t.pbv, t.plen, t.nblk, t.pb.length)) = some (false, 0, 0, 0) ∧
    after (exec .rel (abcPadded 134)) (fun t => (t.dvalid, t.done, t.busy, t.upc)) = some (true, true, false, 0) := by
  decide

/-! ### The step and the host -/

/-- P1: after `START`, `BUSY = 1`, `UPC = 0`, `BLK = 0`, `LEN = 3`, `MV = 1`. -/
theorem test_start :
    after (step ready) (fun t => (t.busy, t.upc, t.blk, t.len, t.mv, t.inputs.length)) = some (true, 0, 0, 3, true, 0) := by
  decide

/-- 44_engine.md R174: a `START` during a run is lost and the micro-operation is done. -/
theorem test_start_ignored :
    after (step { abcAt 0 with inputs := [{ startAbc with len := 9 }] }) (fun t => (t.len, t.upc, t.inputs.length)) =
      some (3, 1, 0) := by decide

/-- 70_reset_and_hazards.md R210, R211: `rst` wins over `start` and abandons a run. -/
theorem test_reset_wins :
    after (step { abcPadded 40 with inputs := [{ startAbc with rst := true }] }) (fun t =>
      (t.busy, t.done, t.err, t.upc, t.pbv, t.len)) = some (false, false, 0, 0, false, 0) := by decide

/-- 60_exceptions.md R207: nothing happens while `BUSY = 0` and nothing is asked. -/
theorem test_idle : step base = .next base := by rfl

/-- 30_encoding.md R75: a run that left the ROM stops (log 9). -/
theorem test_no_slot : step (busyAt 135) = .fault .noSlot := by rfl

/-- Selecting a word makes the next step run it, from the reset state. -/
theorem test_fetch_word :
    after (step (State.reset.withFetchWord 16 0x800)) (fun t => t.upc) = some 133 ∧
    after (step (State.reset.withFetchWord 16 0x73F)) (fun t => t.upc) = some 132 ∧
    after (step (State.reset.withFetchWord 16 0x300)) (fun t => t.plen) = some 64 := by
  decide

/-- 10_state.md R34, R35: byte 0 of the digest is on the top wires; without `DVALID` there is no value. -/
theorem test_digest_port :
    (portDigest { base with dvalid := true, digest := some (bytesOfWords iv) }).map (fun x => x.extractLsb' 248 8) =
      some 0x6a#8 ∧
    portDigest { base with digest := some (bytesOfWords iv) } = none := by
  decide

/-! ### Witnesses: what each statement assumes is met, together, by a concrete state and operands; where a statement has several
clauses, each at a boundary of its range -/

theorem witness_ChkChecksForAMessage : (busyAt 0).mv = true ∧ ({ busyAt 0 with mv := false } : State).mv = false := by decide

theorem witness_PadRaisesItsTwoErrors :
    2 ^ 61 ≤ ({ base with len := BitVec.ofNat 64 (2 ^ 61) } : State).len.toNat ∧
    ((63 : Nat) : Int) = (55 - (({ base with len := 56 } : State).len.toNat : Int)) % 64 ∧
    ({ base with len := 56 } : State).len.toNat < 2 ^ 61 ∧
    ({ base with len := 56 } : State).pbCap < ({ base with len := 56 } : State).len.toNat + 1 + 63 + 8 := by decide

/-- "abc": the marker, the first and the last zero, the first and the last byte of the length field, the
first byte past the buffer. -/
theorem witness_PadBuildsTheBuffer :
    3 = (abcAt 2).len.toNat ∧ ((52 : Nat) : Int) = (55 - ((3 : Nat) : Int)) % 64 ∧ 64 = 3 + 1 + 52 + 8 ∧ 3 < 2 ^ 61 ∧
    64 ≤ (abcAt 2).pbCap ∧ (3 < 4 ∧ 4 ≤ 3 + 52) ∧ (3 < 55 ∧ 55 ≤ 3 + 52) ∧ 0 < 8 ∧ 7 < 8 ∧ 64 ≤ 64 := by decide

/-- At `LEN = 55` there is no zero byte and the buffer just fits. -/
theorem witness_PadBuildsTheBuffer_full :
    55 = ({ base with len := 55 } : State).len.toNat ∧ ((0 : Nat) : Int) = (55 - ((55 : Nat) : Int)) % 64 ∧
    64 = 55 + 1 + 0 + 8 ∧ 55 < 2 ^ 61 ∧ 64 ≤ ({ base with len := 55 } : State).pbCap := by decide

theorem witness_PadBufferIsThePaddedMessage :
    (abcAt 2).len.toNat < 2 ^ 61 ∧ padLength (abcAt 2).len.toNat ≤ (abcAt 2).pbCap ∧
    [0x61#8, 0x62#8, 0x63#8].length = (abcAt 2).len.toNat ∧
    (∀ i, i < (abcAt 2).len.toNat →
      [0x61#8, 0x62#8, 0x63#8][i]? = some ((Memory.lookup (abcAt 2).msg i).getD 0)) := by decide

theorem witness_WldLoadsAScheduleWord :
    (15#6).toNat ≤ 15 ∧ 64 * (abcPadded 18).blk.toNat + 4 * (15#6).toNat + 3 < (abcPadded 18).pbCap ∧
    Memory.lookup (abcPadded 18).pb (64 * (abcPadded 18).blk.toNat + 4 * (15#6).toNat) = some 0x00#8 ∧
    Memory.lookup (abcPadded 18).pb (64 * (abcPadded 18).blk.toNat + 4 * (15#6).toNat + 1) = some 0x00#8 ∧
    Memory.lookup (abcPadded 18).pb (64 * (abcPadded 18).blk.toNat + 4 * (15#6).toNat + 2) = some 0x00#8 ∧
    Memory.lookup (abcPadded 18).pb (64 * (abcPadded 18).blk.toNat + 4 * (15#6).toNat + 3) = some 0x18#8 := by decide

theorem witness_WldCompletesInsideTheMemory :
    ((15#6).toNat ≤ 15 ∧ 64 * (busyAt 18).blk.toNat + 4 * (15#6).toNat + 3 < (busyAt 18).pbCap) ∧
    ((0#6).toNat ≤ 15 ∧
      ({ busyAt 3 with blk := 1 } : State).pbCap ≤ 64 * ({ busyAt 3 with blk := 1 } : State).blk.toNat + 4 * (0#6).toNat + 3) := by
  decide

theorem witness_WexDerivesAScheduleWord :
    (16 ≤ (16#6).toNat ∧ (14 : Fin 64).val + 2 = (16#6).toNat ∧ (9 : Fin 64).val + 7 = (16#6).toNat ∧
      (1 : Fin 64).val + 15 = (16#6).toNat ∧ (0 : Fin 64).val + 16 = (16#6).toNat) ∧
    (16 ≤ (63#6).toNat ∧ (61 : Fin 64).val + 2 = (63#6).toNat ∧ (56 : Fin 64).val + 7 = (63#6).toNat ∧
      (48 : Fin 64).val + 15 = (63#6).toNat ∧ (47 : Fin 64).val + 16 = (63#6).toNat) := by decide

theorem witness_ReservedIndexIsRefused : 16 ≤ (16#6).toNat ∧ (15#6).toNat < 16 := by decide

theorem witness_RndIsOneRound : ∃ (s : State) (a b c d e f g h t1 t2 : Word), s.v = #v[a, b, c, d, e, f, g, h] ∧
    t1 = h + bigSigma1 e + ch e f g + kTable[(63#6).toNat]'(63#6).isLt + s.w[(63#6).toNat]'(63#6).isLt ∧
    t2 = bigSigma0 a + maj a b c :=
  ⟨{ base with v := #v[1, 2, 3, 4, 5, 6, 7, 8] }, 1, 2, 3, 4, 5, 6, 7, 8, _, _, rfl, rfl, rfl⟩

theorem witness_HaddAddsAndLoops :
    (∀ i : Fin 8, (Vector.replicate 8 (0 : Word))[i] = (abcPadded 132).h[i] + (abcPadded 132).v[i]) ∧
    ({ abcPadded 132 with nblk := 2 } : State).blk.toNat + 1 < ({ abcPadded 132 with nblk := 2 } : State).nblk.toNat ∧
    ¬ (abcPadded 132).blk.toNat + 1 < (abcPadded 132).nblk.toNat := by decide

/-- Each kind of error with its code, and the codes of the other kinds, of which nothing is asked. -/
theorem witness_ErrorEntryEndsTheRun : ∀ e : ErrorKind, ∃ code : BitVec 2,
    (e = .nullInput → code = 1) ∧ (e = .allocationFailure → code = 2) ∧ (e = .inputTooLarge → code = 3) := by
  intro e
  cases e
  · exact ⟨1, by decide⟩
  · exact ⟨2, by decide⟩
  · exact ⟨3, by decide⟩

theorem witness_StepRunsTheFetchedMicroOp :
    (busyAt 134).busy = true ∧ (busyAt 134).inputs.head?.isNone = true ∧
    romWord (busyAt 134).upc.toNat = some 0xA00#12 ∧ decode 0xA00#12 = .ok .rel := by decide

theorem witness_StepRunsTheFetchedMicroOp_sample :
    ∀ p, ({ busyAt 0 with inputs := [startAbc] } : State).inputs.head? = some p → p.rst = false := by
  rintro p ⟨rfl⟩
  rfl

theorem witness_StartBeginsARun :
    ready.inputs = startAbc :: [] ∧ startAbc.start = true ∧ startAbc.rst = false ∧ ready.busy = false := by decide

theorem witness_StartWhileBusyIsIgnored :
    ({ busyAt 40 with inputs := [startAbc] } : State).inputs = startAbc :: [] ∧ startAbc.rst = false ∧
    ({ busyAt 40 with inputs := [startAbc] } : State).busy = true := by decide

theorem witness_ResetWinsOverEverything :
    ({ busyAt 40 with inputs := [{ startAbc with rst := true }] } : State).inputs = { startAbc with rst := true } :: [] ∧
    ({ startAbc with rst := true } : PortIn).rst = true := by decide

/-- The samples of two steps are at rest; the third, which is not read, starts a run. -/
theorem witness_ResultStaysUntilStartOrReset :
    ({ base with done := true, inputs := [PortIn.rest, PortIn.rest, startAbc] } : State).busy = false ∧
    ∀ p ∈ ({ base with done := true, inputs := [PortIn.rest, PortIn.rest, startAbc] } : State).inputs.take 2,
      p.rst = false ∧ p.start = false := by decide

theorem witness_DigestPortShowsTheDigest :
    (∃ (s : State) (d : Vector Byte 32), s.dvalid = true ∧ s.digest = some d) ∧ base.dvalid = false :=
  ⟨⟨{ base with dvalid := true, digest := some (bytesOfWords iv) }, bytesOfWords iv, rfl, rfl⟩, rfl⟩

/-- A legal word at the upper edge of `WLD`, and the reserved word above it. -/
theorem witness_DecodeAcceptsExactlyTheLegalWords :
    ((0x40F#12).toNat = 256 * 0x4 + 64 * 0 + 15 ∧ 0 < 4 ∧ 15 < 64) ∧
    ((0x410#12).toNat = 256 * 0x4 + 64 * 0 + 16 ∧ 16 < 64) ∧ ((0xFFF#12).toNat = 256 * 0xF + 64 * 3 + 63 ∧ 3 < 4) := by decide

theorem witness_DecodeOfEncodeIsTheMicroOp : (Instr.wld 15#6).wf = true ∧ (Instr.wex 16#6).wf = true ∧ Instr.rel.wf = true := by
  decide

theorem witness_EncodeOfDecodeIsTheWord : decode 0x53F#12 = .ok (.wex 63#6) := by decide

/-- Both ends of the three ranges, a word in a slot, and a well-formed micro-operation. -/
theorem witness_EveryLegalWordHasOneSlot :
    (3 ≤ 3 ∧ 18 ≤ 18) ∧ (19 ≤ 19 ∧ 66 ≤ 66) ∧ (68 ≤ 68 ∧ 131 ≤ 131) ∧ romWord 134 = some 0xA00#12 ∧
    (Instr.rnd 63#6).wf = true ∧ romWord 131 = some (encode (.rnd 63#6)) := by decide

theorem witness_RotateAndShiftByBit : (0 < 1 ∧ 1 < 32 ∧ 0 < 32) ∧ (0 < 31 ∧ 31 < 32) := by decide

theorem witness_SigmaFunctionsByBit : 0 < 32 ∧ 31 < 32 := by decide

theorem witness_ChSelectsAndMajIsTheMajority : 0 < 32 ∧ 31 < 32 := by decide

theorem witness_BytesAndWordsAreInverse : bytes32 0xba7816bf#32 = [0xba#8, 0x78#8, 0x16#8, 0xbf#8] := by decide

theorem witness_LengthFieldKeepsAllBits : 2 ^ 61 - 1 < 2 ^ 61 := by decide

/-- A padding that fits, and the largest message. -/
theorem witness_PaddingIsTheLeastThatFits : (56 + 1 + 63 + 8) % 64 = 0 ∧ 2 ^ 61 - 1 ≤ 2 ^ 61 - 1 := by decide

/-- A block of 64 bytes: the last word of the block, and the first and the last derived word. -/
theorem witness_ExpandObeysTheRecurrence :
    (List.replicate 64 0x61#8).length = 64 ∧
    (15 < 16 ∧ (List.replicate 64 0x61#8)[4 * 15]? = some 0x61#8 ∧ (List.replicate 64 0x61#8)[4 * 15 + 1]? = some 0x61#8 ∧
      (List.replicate 64 0x61#8)[4 * 15 + 2]? = some 0x61#8 ∧ (List.replicate 64 0x61#8)[4 * 15 + 3]? = some 0x61#8) ∧
    (16 ≤ 16 ∧ 16 < 64 ∧
      ([16, 16 - 2, 16 - 7, 16 - 15, 16 - 16].all fun t => ((expand (List.replicate 64 0x61#8))[t]?).isSome) = true) ∧
    (16 ≤ 63 ∧ 63 < 64 ∧
      ([63, 63 - 2, 63 - 7, 63 - 15, 63 - 16].all fun t => ((expand (List.replicate 64 0x61#8))[t]?).isSome) = true) := by decide

theorem witness_RegistersHaveOnlyTheirWriters : (after (exec (.wex 63#6) (busyAt 66)) (fun t => t.upc)).isSome = true := by
  decide

theorem witness_BufferHasOnlyItsWriters :
    (Instr.ser ≠ .pad ∧ Instr.ser ≠ .rel ∧ Instr.ser ≠ .chk ∧ (after (exec .ser (busyAt 133)) (fun t => t.upc)).isSome = true) ∧
    ((busyAt 0).mv = true ∧ (after (exec .chk (busyAt 0)) (fun t => t.upc)).isSome = true) ∧
    (({ abcAt 2 with len := 55 } : State).len.toNat < 2 ^ 61 ∧
      padLength ({ abcAt 2 with len := 55 } : State).len.toNat ≤ (abcAt 2).pbCap ∧
      (after (exec .pad { abcAt 2 with len := 55 }) (fun t => t.pbv)).isSome = true ∧
      padLength ({ abcAt 2 with len := 55 } : State).len.toNat ≤ 64) := by decide

theorem witness_OnlyChkAndPadRaise :
    (after (exec .pad { busyAt 2 with len := 56 }) (fun t => t.err)).isSome = true := by decide

/-- A message that fits with no zero byte; each way in which nothing is read; an offset that is asked for. -/
theorem witness_MessagePortAsksForEachByteOnce :
    ((abcAt 2).busy = true ∧ (abcAt 2).inputs.head?.isNone = true ∧ (abcAt 2).upc = 2 ∧
      ({ abcAt 2 with len := 55 } : State).len.toNat < 2 ^ 61 ∧
      padLength ({ abcAt 2 with len := 55 } : State).len.toNat ≤ (abcAt 2).pbCap) ∧
    (base.busy = false ∧ (abcAt 1).upc ≠ 2 ∧ 2 ^ 61 ≤ ({ base with len := BitVec.ofNat 64 (2 ^ 61) } : State).len.toNat ∧
      base.pbCap < padLength ({ base with len := 56 } : State).len.toNat) ∧
    2#64 ∈ portMsgAddrs (abcAt 2) := by decide

theorem witness_RunEndsOnlyByRelOrError :
    (abcPadded 134).busy = true ∧ (abcPadded 134).inputs.head?.isNone = true ∧
    after (step (abcPadded 134)) (fun t => t.busy) = some false := by decide

theorem witness_RunEndsOnlyByRelOrError_error :
    after (step { busyAt 2 with len := 56 }) (fun t => t.busy) = some false := by decide

/-! States that meet the invariant: an idle core with a `START` pending, a run before `PAD`, a run at each of the edges after it. -/

theorem ready_inv : ready.Inv where
  phases := by decide
  ended := by decide
  digestDone := by decide
  errorDone := by decide
  digestHeld := by decide
  digestLate := by decide
  slots := by decide
  idle := by decide
  beforePad := by decide
  hasMessage := by decide
  inBlock := by decide
  released := by decide
  lengths := by decide
  content := fun h => absurd h (by decide)
  pbCanonical := by decide
  msgCanonical := by decide
  inputsCanonical := by decide

theorem abcAt_inv : (abcAt 1).Inv where
  phases := by decide
  ended := by decide
  digestDone := by decide
  errorDone := by decide
  digestHeld := by decide
  digestLate := by decide
  slots := by decide
  idle := by decide
  beforePad := by decide
  hasMessage := by decide
  inBlock := by decide
  released := by decide
  lengths := by decide
  content := fun h => absurd h (by decide)
  pbCanonical := by decide
  msgCanonical := by decide
  inputsCanonical := by decide

/-- The listed offsets of a memory are its keys. -/
theorem lookup_isSome_iff (m : Memory) (a : Nat) : (Memory.lookup m a).isSome = true ↔ a ∈ m.map Prod.fst := by
  induction m with
  | nil => simp
  | cons c m ih =>
    obtain ⟨k, b⟩ := c
    by_cases h : a = k
    · simp [Memory.lookup, h]
    · simpa [Memory.lookup, h] using ih

theorem abcPadded_keys : (abcPadded 67).pb.map Prod.fst = List.range 64 := by decide

theorem abcPadded_inv : (abcPadded 67).Inv where
  phases := by decide
  ended := by decide
  digestDone := by decide
  errorDone := by decide
  digestHeld := by decide
  digestLate := by decide
  slots := by decide
  idle := by decide
  beforePad := by decide
  hasMessage := by decide
  inBlock := by decide
  released := by decide
  lengths := by decide
  content := fun _ a => by
    rw [lookup_isSome_iff, abcPadded_keys]
    exact List.mem_range
  pbCanonical := by decide
  msgCanonical := by decide
  inputsCanonical := by decide

/-- An idle core meets the invariant without a message. -/
theorem witness_MessagePortAsksForEachByteOnce_null : ready.Inv ∧ ready.mv = false := ⟨ready_inv, rfl⟩

/-- A pending reset at slot 2. -/
theorem witness_MessagePortAsksForEachByteOnce_reset :
    ∃ p, ({ abcAt 2 with inputs := [{ startAbc with rst := true }] } : State).inputs.head? = some p ∧ p.rst = true :=
  ⟨_, rfl, rfl⟩

theorem witness_EveryStepKeepsTheInvariant :
    (ready.Inv ∧ (after (step ready) (fun t => t.upc)).isSome = true) ∧
    ((abcPadded 67).Inv ∧ (after (step (abcPadded 67)) (fun t => t.upc)).isSome = true) :=
  ⟨⟨ready_inv, by decide⟩, abcPadded_inv, by decide⟩

theorem witness_NoStepStopsUnderTheInvariant : (abcAt 1).Inv ∧ (abcPadded 67).Inv := ⟨abcAt_inv, abcPadded_inv⟩

/-- Two states that differ in `V`, before `VLD`. -/
theorem witness_UnwrittenRegistersAreNeverRead :
    (abcPadded 67).Inv ∧ (abcPadded 67).Agree { abcPadded 67 with v := iv, draws := 7 } ∧
    (after (step (abcPadded 67)) (fun t => t.upc)).isSome = true :=
  ⟨abcPadded_inv, ⟨rfl, rfl, rfl, rfl, rfl, rfl, rfl, rfl, rfl, rfl, rfl, rfl, rfl, rfl, rfl, rfl, fun _ _ => rfl,
    fun _ h => absurd h (by decide), fun _ _ _ _ => rfl⟩, by decide⟩

theorem witness_UnwrittenRegistersAreNeverRead_before_init :
    (abcAt 1).Inv ∧ (abcAt 1).Agree { abcAt 1 with h := iv, v := iv, w := kTable } ∧
    (after (step (abcAt 1)) (fun t => t.upc)).isSome = true :=
  ⟨abcAt_inv, ⟨rfl, rfl, rfl, rfl, rfl, rfl, rfl, rfl, rfl, rfl, rfl, rfl, rfl, rfl, rfl, rfl, fun _ h => absurd h (by decide),
    fun _ h => absurd h (by decide), fun _ _ _ h => absurd h (by simp [abcAt, busyAt])⟩, by decide⟩

/-- An idle core after an earlier run that ended well, the same `START` pending as in `ready`. -/
def readyAgain : State := { ready with h := iv, done := true, dvalid := true, digest := some (bytesOfWords iv), len := 9, mv := true }

theorem readyAgain_inv : readyAgain.Inv where
  phases := by decide
  ended := by decide
  digestDone := by decide
  errorDone := by decide
  digestHeld := fun _ => ⟨fun _ => rfl, fun _ => rfl⟩
  digestLate := by decide
  slots := by decide
  idle := by decide
  beforePad := by decide
  hasMessage := by decide
  inBlock := by decide
  released := by decide
  lengths := by decide
  content := fun h => absurd h (by decide)
  pbCanonical := by decide
  msgCanonical := by decide
  inputsCanonical := by decide

theorem witness_RunsDoNotLeakIntoEachOther :
    ready.Inv ∧ readyAgain.Inv ∧ ready.busy = false ∧ readyAgain.busy = false ∧ ready.capExtra = readyAgain.capExtra ∧
    ready.inputs = startAbc :: [] ∧ readyAgain.inputs = startAbc :: [] ∧ startAbc.start = true ∧ startAbc.rst = false ∧
    (after (runFor (3 + 1) ready) (fun t => t.upc)).isSome = true :=
  ⟨ready_inv, readyAgain_inv, rfl, rfl, rfl, rfl, rfl, rfl, rfl, by decide⟩

theorem witness_ExpandMacroFillsTheSchedule :
    (abcPadded 3).busy = true ∧ (abcPadded 3).upc = 3 ∧ (abcPadded 3).noReset 64 ∧
    (pad [0x61#8, 0x62#8, 0x63#8]).length = 64 ∧ 64 * (abcPadded 3).blk.toNat + 63 < (abcPadded 3).pbCap ∧
    ∀ i, i < 64 →
      Memory.lookup (abcPadded 3).pb (64 * (abcPadded 3).blk.toNat + i) = (pad [0x61#8, 0x62#8, 0x63#8])[i]? := by
  refine ⟨by decide, by decide, fun p hp => absurd hp (by simp [abcPadded, abcAt, busyAt, base, State.reset]), by decide, by decide, by decide⟩

theorem witness_CompressMacroFoldsABlock :
    ((abcPadded 67).busy = true ∧ (abcPadded 67).upc = 67 ∧ (abcPadded 67).noReset 66) ∧
    ¬ (abcPadded 67).blk.toNat + 1 < (abcPadded 67).nblk.toNat ∧
    ({ abcPadded 67 with nblk := 2 } : State).blk.toNat + 1 < ({ abcPadded 67 with nblk := 2 } : State).nblk.toNat :=
  ⟨⟨by decide, by decide, fun p hp => absurd hp (by simp [abcPadded, abcAt, busyAt, base, State.reset])⟩, by decide, by decide⟩

theorem witness_RunComputesTheDigest :
    ready.inputs = startAbc :: [] ∧ startAbc.rst = false ∧ startAbc.start = true ∧ startAbc.msgValid = true ∧
    ready.busy = false ∧ startAbc.len.toNat < 2 ^ 61 ∧ padLength startAbc.len.toNat ≤ ready.pbCap ∧
    ∀ q ∈ ([] : List PortIn).take (5 + 130 * ((startAbc.len.toNat + 8) / 64 + 1)), q.rst = false := by
  refine ⟨by decide, by decide, by decide, by decide, by decide, by decide, by decide, by simp⟩

theorem witness_OtherRunsEndWithTheirError :
    (ready.inputs = startAbc :: [] ∧ startAbc.rst = false ∧ startAbc.start = true ∧ ready.busy = false ∧
      ∀ q ∈ ([] : List PortIn).take 3, q.rst = false) ∧
    ({ startAbc with msgValid := false } : PortIn).msgValid = false ∧
    (startAbc.msgValid = true ∧ 2 ^ 61 ≤ ({ startAbc with len := BitVec.ofNat 64 (2 ^ 61) } : PortIn).len.toNat) ∧
    (({ startAbc with len := 56 } : PortIn).len.toNat < 2 ^ 61 ∧
      ready.pbCap < padLength ({ startAbc with len := 56 } : PortIn).len.toNat) := by
  refine ⟨⟨by decide, by decide, by decide, by decide, by simp⟩, by decide, by decide, by decide⟩

end Sys2Proof.Tests
end

/-! ### The micro-program: every slot holds the word of one micro-operation -/

namespace Sys2Proof.Machine

theorem decode_microWord (op : BitVec 4) (t : BitVec 6) : decode (microWord op t) = decodeOp op.toNat t := by
  rw [decode, Laws.EncodedFields.fieldZ_microWord, Laws.EncodedFields.fieldOp_microWord,
    Laws.EncodedFields.fieldT_microWord, if_pos rfl]

/-- The decoder gives back every micro-operation that has a word (30_encoding.md R72). -/
theorem decode_encode {i : Instr} (h : i.wf = true) : decode (encode i) = .ok i := by
  cases i with
  | wld t => exact (decode_microWord _ _).trans (if_pos h)
  | wex t => exact (decode_microWord _ _).trans (if_pos h)
  | rnd t => exact decode_microWord _ _
  | chk | init | pad | vld | hadd | ser | rel => exact decode_microWord _ _

theorem romWord_wld {n : Nat} (h : 3 ≤ n) (h' : n ≤ 18) : romWord n = some (0x400#12 + BitVec.ofNat 12 (n - 3)) := by
  rw [romWord, if_neg (by omega), if_neg (by omega), if_neg (by omega), if_pos h']

theorem romWord_wex {n : Nat} (h : 19 ≤ n) (h' : n ≤ 66) : romWord n = some (0x500#12 + BitVec.ofNat 12 (n - 3)) := by
  rw [romWord, if_neg (by omega), if_neg (by omega), if_neg (by omega), if_neg (by omega), if_pos h']

theorem romWord_rnd {n : Nat} (h : 68 ≤ n) (h' : n ≤ 131) : romWord n = some (0x700#12 + BitVec.ofNat 12 (n - 68)) := by
  rw [romWord, if_neg (by omega), if_neg (by omega), if_neg (by omega), if_neg (by omega), if_neg (by omega),
    if_neg (by omega), if_pos h']

/-- A micro-operation stands in its slot of the ROM (30_encoding.md R75). -/
theorem romWord_romSlot {i : Instr} (h : i.wf = true) : romWord (romSlot i) = some (encode i) := by
  cases i with
  | wld t =>
    have ht : t.toNat ≤ 15 := by simpa [Instr.wf] using h
    rw [romSlot, romWord_wld (by omega) (by omega), Nat.add_sub_cancel_left]
    simp [encode, microWord, BitVec.ofNat_add]
  | wex t =>
    have ht : 16 ≤ t.toNat := by simpa [Instr.wf] using h
    rw [romSlot, romWord_wex (by omega) (by omega), Nat.add_sub_cancel_left]
    simp [encode, microWord, BitVec.ofNat_add]
  | rnd t =>
    rw [romSlot, romWord_rnd (by omega) (by omega), Nat.add_sub_cancel_left]
    simp [encode, microWord, BitVec.ofNat_add]
  | chk | init | pad | vld | hadd | ser | rel => rfl

/-- Every slot of the ROM is the slot of a micro-operation (30_encoding.md R75). -/
theorem exists_romSlot_eq {n : Nat} (h : n ≤ 134) : ∃ i : Instr, i.wf = true ∧ romSlot i = n := by
  have hT {k : Nat} (hk : k < 64) : (BitVec.ofNat 6 k).toNat = k := Nat.mod_eq_of_lt hk
  obtain rfl | rfl | rfl | hwld | hwex | rfl | hrnd | rfl | rfl | rfl : n = 0 ∨ n = 1 ∨ n = 2 ∨ (3 ≤ n ∧ n ≤ 18) ∨
    (19 ≤ n ∧ n ≤ 66) ∨ n = 67 ∨ (68 ≤ n ∧ n ≤ 131) ∨ n = 132 ∨ n = 133 ∨ n = 134 := by omega
  · exact ⟨.chk, rfl, rfl⟩
  · exact ⟨.init, rfl, rfl⟩
  · exact ⟨.pad, rfl, rfl⟩
  · have hk := hT (k := n - 3) (by omega)
    exact ⟨.wld (BitVec.ofNat 6 (n - 3)), decide_eq_true (by omega), by rw [romSlot, hk]; omega⟩
  · have hk := hT (k := n - 3) (by omega)
    exact ⟨.wex (BitVec.ofNat 6 (n - 3)), decide_eq_true (by omega), by rw [romSlot, hk]; omega⟩
  · exact ⟨.vld, rfl, rfl⟩
  · have hk := hT (k := n - 68) (by omega)
    exact ⟨.rnd (BitVec.ofNat 6 (n - 68)), rfl, by rw [romSlot, hk]; omega⟩
  · exact ⟨.hadd, rfl, rfl⟩
  · exact ⟨.ser, rfl, rfl⟩
  · exact ⟨.rel, rfl, rfl⟩

/-- From slot 135 on the ROM holds nothing (30_encoding.md R75). -/
theorem romWord_eq_none {n : Nat} (h : 135 ≤ n) : romWord n = none := by
  rw [romWord]
  repeat rw [if_neg (by omega)]

/-- What stands in a slot is the word of the micro-operation that has this slot. -/
theorem romWord_eq_some {n : Nat} {u : MicroWord} (h : romWord n = some u) :
    ∃ i : Instr, i.wf = true ∧ romSlot i = n ∧ encode i = u := by
  have hn : n ≤ 134 := by
    by_contra hn
    simp [romWord_eq_none (show 135 ≤ n by omega)] at h
  obtain ⟨i, hwf, rfl⟩ := exists_romSlot_eq hn
  exact ⟨i, hwf, rfl, by simpa [romWord_romSlot hwf] using h⟩

/-- The word of a micro-operation stands in its slot only (30_encoding.md R75). -/
theorem romWord_eq_some_encode {n : Nat} {i : Instr} (hwf : i.wf = true) (h : romWord n = some (encode i)) :
    romSlot i = n := by
  obtain ⟨j, hj, hslot, henc⟩ := romWord_eq_some h
  have hij : decode (encode j) = decode (encode i) := by rw [henc]
  rw [decode_encode hj, decode_encode hwf] at hij
  injection hij with hij
  rwa [← hij]

end Sys2Proof.Machine

/-! ### What a step is, by the sample of the ports and `BUSY` -/

namespace Sys2Proof.Machine

variable {s : State}

theorem step_eq_applyReset (hrst : (portSample s).rst = true) : step s = .next (applyReset (takeSample s)) := by
  rw [step, stepWith, if_pos hrst]

/-- Fetch and decode at a slot of the ROM (30_encoding.md R76, 44_engine.md R166): while `BUSY = 1`, without a reset, the
step is the micro-operation that has the slot `UPC`. -/
theorem step_eq_exec {i : Instr} (hrst : (portSample s).rst = false) (hbusy : s.busy = true) (hwf : i.wf = true)
    (hslot : romSlot i = s.upc.toNat) : step s = exec i (takeSample s) := by
  simp [step, stepWith, hrst, hbusy, sequencerStep, fetch, ← hslot, romWord_romSlot hwf, decode_encode hwf]

theorem step_eq_acceptStart (hrst : (portSample s).rst = false) (hbusy : s.busy = false)
    (hstart : (portSample s).start = true) : step s = .next (acceptStart (portSample s) (takeSample s)) := by
  simp [step, stepWith, hrst, hbusy, hstart]

theorem step_eq_takeSample (hrst : (portSample s).rst = false) (hbusy : s.busy = false)
    (hstart : (portSample s).start = false) : step s = .next (takeSample s) := by
  simp [step, stepWith, hrst, hbusy, hstart]

end Sys2Proof.Machine

/-! ### What a micro-operation can do, as a relation -/

namespace Sys2Proof.Machine

/-- `Performs s i t`: in the state `s` the micro-operation `i` completes and leaves `t`. One constructor for each thing a
micro-operation can do; `exec_eq_next_iff` ties the relation to `exec`. -/
inductive Performs (s : State) : Instr → State → Prop
  | chk (hmv : s.mv = true) : Performs s .chk (advance s)
  | chkRaise (hmv : s.mv = false) : Performs s .chk (raise .nullInput s)
  | init : Performs s .init (advance (writeH iv s))
  | pad (hfits : padError s = none) :
      Performs s .pad (advance (commitBuffer (fillBuffer s) (padLength s.len.toNat) s))
  | padRaise (e : ErrorKind) (he : padError s = some e) : Performs s .pad (raise e s)
  | wld (k : BitVec 6) (hk : k.toNat ≤ 15) (hin : wldOffset s.blk k + 3 < s.pbCap) :
      Performs s (.wld k) (advance (writeW (index k) (pbWord s (wldOffset s.blk k)) s))
  | wex (k : BitVec 6) (hk : 16 ≤ k.toNat) : Performs s (.wex k) (advance (writeW (index k) (wexWord k s) s))
  | vld : Performs s .vld (advance (writeV s.h s))
  | rnd (k : BitVec 6) :
      Performs s (.rnd k) (advance (writeV (round s.v kTable[index k] (readW s (index k))) s))
  | haddLoop (hlt : s.blk.toNat + 1 < s.nblk.toNat) :
      Performs s .hadd (jump slotBlock (writeBlk (s.blk + 1) (writeH (addWords s.h s.v) s)))
  | haddExit (hle : s.nblk.toNat ≤ s.blk.toNat + 1) : Performs s .hadd (jump slotSer (writeH (addWords s.h s.v) s))
  | ser : Performs s .ser (advance (writeDigest (bytesOfWords s.h) s))
  | rel : Performs s .rel (jump 0 (flagsEnd (release s)))

/-- The relation says neither more nor less than `exec`. -/
theorem exec_eq_next_iff {i : Instr} {s t : State} : exec i s = .next t ↔ Performs s i t := by
  constructor
  · intro h
    cases i with
    | chk =>
      rw [exec_chk, execChk_eq] at h
      injection h with h
      subst h
      split
      case isTrue hmv => exact .chk hmv
      case isFalse hmv => exact .chkRaise (by simpa using hmv)
    | pad =>
      rw [exec_pad, execPad] at h
      split at h
      case h_1 e he => injection h with h; exact h ▸ .padRaise e he
      case h_2 hfits => injection h with h; exact h ▸ .pad hfits
    | wld k =>
      obtain ⟨hk, hin, rfl⟩ := execWld_next h
      exact .wld k hk hin
    | wex k =>
      obtain ⟨hk, rfl⟩ := execWex_next h
      exact .wex k hk
    | hadd =>
      rw [exec_hadd] at h
      injection h with h
      subst h
      obtain ⟨hlt, heq⟩ | ⟨hle, heq⟩ := blockLoop_cases (writeH (addWords s.h s.v) s)
      · exact heq ▸ .haddLoop hlt
      · exact heq ▸ .haddExit hle
    | init => injection h with h; exact h ▸ .init
    | vld => injection h with h; exact h ▸ .vld
    | rnd k => injection h with h; exact h ▸ .rnd k
    | ser => injection h with h; exact h ▸ .ser
    | rel => injection h with h; exact h ▸ .rel
  · intro h
    cases h with
    | chk hmv | chkRaise hmv => simp [execChk_eq, hmv]
    | pad h | padRaise _ h => simp only [exec_pad, execPad, h]
    | wld k hk hin => exact execWld_eq hk hin
    | wex k hk => exact execWex_eq hk
    | haddLoop hlt => rw [exec_hadd, blockLoop]; exact congrArg _ (if_pos hlt)
    | haddExit hle => rw [exec_hadd, blockLoop]; exact congrArg _ (if_neg (Nat.not_lt.mpr hle))
    | init | vld | rnd | ser | rel => rfl

/-- Everything a step that answers a next state can be, with the micro-operation and its slot (30_encoding.md R75). -/
theorem step_performs {s t : State} (h : step s = .next t) :
    ((portSample s).rst = true ∧ t = applyReset (takeSample s)) ∨
    (s.busy = true ∧ ∃ i, romSlot i = s.upc.toNat ∧ Performs (takeSample s) i t) ∨
    (s.busy = false ∧ t = acceptStart (portSample s) (takeSample s)) ∨
    (s.busy = false ∧ t = takeSample s) := by
  obtain ⟨hrst, ht⟩ | ⟨-, hbusy, u, i, hu, hi, ht⟩ | ⟨-, hidle, -, ht⟩ | ⟨-, hidle, -, ht⟩ := step_cases h
  · exact .inl ⟨hrst, ht⟩
  · obtain ⟨j, hwf, hslot, rfl⟩ := romWord_eq_some hu
    obtain rfl : j = i := by simpa [decode_encode hwf] using hi
    exact .inr (.inl ⟨hbusy, j, hslot, exec_eq_next_iff.mp ht⟩)
  · exact .inr (.inr (.inl ⟨hidle, ht⟩))
  · exact .inr (.inr (.inr ⟨hidle, ht⟩))

end Sys2Proof.Machine

/-! ### The padded length and the buffer -/

namespace Sys2Proof.Machine

theorem padError_eq_none_iff {s : State} :
    padError s = none ↔ s.len.toNat < 2 ^ 61 ∧ padLength s.len.toNat ≤ s.pbCap := by
  obtain ⟨h, he⟩ | ⟨-, h, he⟩ | ⟨h, h', he⟩ := padError_cases s
  · exact iff_of_false (by simp [he]) (by omega)
  · exact iff_of_false (by simp [he]) (by omega)
  · exact iff_of_true he ⟨h, h'⟩

theorem padLength_eq_mul (n : Nat) : padLength n = 64 * ((n + 8) / 64 + 1) := by
  simp only [padLength, padZeros]
  omega

theorem le_padLength (n : Nat) : n + 9 ≤ padLength n := by
  simp only [padLength]
  omega

theorem padLength_le (n : Nat) : padLength n ≤ n + 72 := by
  simp only [padLength, padZeros]
  omega

/-- The bytes of `fillBuffer` on an empty buffer are exactly those below the padded length (41_padder.md R120). -/
theorem isSome_lookup_fillBuffer {s : State} (hpb : s.pb = []) (a : Nat) :
    (Memory.lookup (fillBuffer s) a).isSome = true ↔ a < padLength s.len.toNat := by
  have hp : padLength s.len.toNat = s.len.toNat + 1 + padZeros s.len.toNat + 8 := rfl
  rw [lookup_fillBuffer, hpb, lookup_nil]
  split
  · simp; omega
  split
  · simp; omega
  split
  · simp; omega
  split
  case isTrue hlt =>
    simp [hlt, bytes64_length]
    omega
  case isFalse hlt => simpa using hlt

end Sys2Proof.Machine

/-! ### The invariant: reset has it and every step keeps it -/

namespace Sys2Proof.Machine

/-- The invariant of an idle core (no run in progress, no buffer): what is left of it says how the flags, `ERR` and `DIGEST`
go together, and that memories are canonical. -/
theorem State.Inv.of_idle {s : State} (hbusy : s.busy = false) (hupc : s.upc = 0) (hpbv : s.pbv = false)
    (hempty : s.plen = 0 ∧ s.nblk = 0 ∧ s.pb = []) (hended : s.done = true → (s.dvalid = true ↔ s.err = 0))
    (hdvalid : s.dvalid = true → s.done = true) (herr : s.err ≠ 0 → s.done = true)
    (hdigest : s.digest.isSome = true ↔ s.dvalid = true) (hmsg : Memory.wf (some msgUnlisted) s.msg = true)
    (hinputs : ∀ p ∈ s.inputs, Memory.wf (some msgUnlisted) p.msg = true) : s.Inv where
  phases := by simp [hbusy]
  ended := hended
  digestDone := hdvalid
  errorDone := herr
  digestHeld := fun _ => hdigest
  digestLate := by simp [hbusy]
  slots := by simp [hupc]
  idle := fun _ => ⟨hupc, hpbv⟩
  beforePad := by simp [hbusy]
  hasMessage := by simp [hbusy]
  inBlock := by simp [hbusy]
  released := fun _ => hempty
  lengths := by simp [hpbv]
  content := by simp [hpbv]
  pbCanonical := by rw [hempty.2.2]; exact wf_nil _
  msgCanonical := hmsg
  inputsCanonical := hinputs

theorem inv_reset : State.reset.Inv :=
  .of_idle rfl rfl rfl ⟨rfl, rfl, rfl⟩ nofun nofun (absurd rfl) ⟨nofun, nofun⟩ rfl nofun

variable {s t : State}

theorem inv_applyReset (h : s.Inv) : (applyReset s).Inv :=
  .of_idle rfl rfl rfl ⟨rfl, rfl, rfl⟩ nofun nofun (absurd rfl) ⟨nofun, nofun⟩ h.msgCanonical h.inputsCanonical

theorem errCode_ne_zero (e : ErrorKind) : errCode e ≠ 0 := by
  cases e <;> decide

/-- An error leaves an ended core without a digest (60_exceptions.md R196). -/
theorem inv_raise (h : s.Inv) (e : ErrorKind) : (raise e s).Inv :=
  .of_idle rfl rfl rfl ⟨rfl, rfl, rfl⟩ (fun _ => ⟨nofun, fun herr => absurd herr (errCode_ne_zero e)⟩) nofun
    (fun _ => rfl) ⟨nofun, nofun⟩ h.msgCanonical h.inputsCanonical

/-- `ERR` is 0 during a run (10_state.md R31, R32). -/
theorem State.Inv.err_eq_zero (h : s.Inv) (hbusy : s.busy = true) : s.err = 0 := by
  by_contra herr
  exact absurd ((h.phases hbusy).symm.trans (h.errorDone herr)) nofun

/-- `REL` leaves an ended core with the digest that `SER` wrote (44_engine.md R165). -/
theorem inv_rel (h : s.Inv) (hbusy : s.busy = true) (hupc : s.upc = 134) :
    (jump 0 (flagsEnd (release s))).Inv :=
  .of_idle rfl rfl rfl ⟨rfl, rfl, rfl⟩ (fun _ => ⟨fun _ => h.err_eq_zero hbusy, fun _ => rfl⟩) (fun _ => rfl)
    (fun _ => rfl) ⟨fun _ => rfl, fun _ => (h.digestLate hbusy).mpr hupc⟩ h.msgCanonical h.inputsCanonical

theorem inv_takeSample (h : s.Inv) : (takeSample s).Inv :=
  { h with inputsCanonical := fun p hp => h.inputsCanonical p (List.mem_of_mem_tail hp) }

theorem wf_portSample_msg (h : s.Inv) : Memory.wf (some msgUnlisted) (portSample s).msg = true := by
  cases hin : s.inputs with
  | nil => rw [portSample_nil hin]; exact wf_nil _
  | cons p ps => rw [portSample_cons hin]; exact h.inputsCanonical p (by simp [hin])

/-- An accepted `START` begins a run in slot 0, without a buffer and without a digest (44_engine.md R161). -/
theorem inv_acceptStart {p : PortIn} (h : s.Inv) (hidle : s.busy = false)
    (hp : Memory.wf (some msgUnlisted) p.msg = true) : (acceptStart p s).Inv :=
  have hpbv := (h.idle hidle).2
  { h with
    phases := fun _ => rfl
    ended := nofun
    digestDone := nofun
    errorDone := absurd rfl
    digestHeld := nofun
    digestLate := fun _ => ⟨nofun, nofun⟩
    slots := Nat.zero_le _
    idle := nofun
    beforePad := fun _ _ => ⟨hpbv, rfl⟩
    hasMessage := fun _ hle => absurd hle (by simp)
    inBlock := fun _ hle => absurd hle (by simp)
    lengths := fun hv => absurd (hpbv.symm.trans hv) nofun
    msgCanonical := hp }

theorem inv_writeH (h : s.Inv) (x : Vector Word 8) : (writeH x s).Inv := { h with }

theorem inv_writeV (h : s.Inv) (x : Vector Word 8) : (writeV x s).Inv := { h with }

theorem inv_writeW (h : s.Inv) (i : Fin 64) (x : Word) : (writeW i x s).Inv := { h with }

theorem toNat_advance_upc (h : s.Inv) : (advance s).upc.toNat = s.upc.toNat + 1 := by
  have hslots := h.slots
  rw [advance_upc]
  bv_omega

/-- The default advance from a slot before `HADD` other than the slot of `PAD` (44_engine.md R167). -/
theorem inv_advance (h : s.Inv) (hbusy : s.busy = true) (hmv : s.mv = true) (hle : s.upc.toNat ≤ 131)
    (hne : s.upc.toNat ≠ 2) : (advance s).Inv :=
  have hupc := toNat_advance_upc h
  { h with
    digestLate := fun _ => by
      have hnow : s.upc ≠ 134 := by bv_omega
      have hnext : (advance s).upc ≠ 134 := by bv_omega
      rw [advance_digest, h.digestLate hbusy]
      exact iff_of_false hnow hnext
    slots := by omega
    idle := fun hb => absurd (hbusy.symm.trans hb) nofun
    beforePad := fun hb _ => h.beforePad hb (by omega)
    hasMessage := fun _ _ => hmv
    inBlock := fun hb _ _ => h.inBlock hb (by omega) (by omega) }

/-- Committing a buffer of `n` bytes in slot 2: a whole number of blocks, room for the message, the marker and the length
field, and exactly the bytes below `n` with a value (41_padder.md R119, R120). -/
theorem inv_commitBuffer (h : s.Inv) (hbusy : s.busy = true) (hupc : s.upc = 2) {m : Memory} {n : Nat}
    (hwf : Memory.wf pbUnlisted m = true) (hm : ∀ a, (Memory.lookup m a).isSome = true ↔ a < n) (hmul : n % 64 = 0)
    (hlen : s.len.toNat + 9 ≤ n) (hmin : n ≤ s.len.toNat + 72) (hcap : n ≤ s.pbCap) (hbits : n < 2 ^ 64) :
    (advance (commitBuffer m n s)).Inv :=
  have hblk : s.blk.toNat = 0 := by rw [(h.beforePad hbusy (by simp [hupc])).2]; rfl
  have hplen : (BitVec.ofNat 64 n).toNat = n := by rw [BitVec.toNat_ofNat, Nat.mod_eq_of_lt hbits]
  have hnblk : (BitVec.ofNat 64 (n / 64)).toNat = n / 64 := by rw [BitVec.toNat_ofNat, Nat.mod_eq_of_lt (by omega)]
  { h with
    digestLate := fun _ => by simp [h.digestLate hbusy, hupc]
    slots := by simp [hupc]
    idle := fun hb => absurd (hbusy.symm.trans hb) nofun
    beforePad := fun _ hle => by simp [hupc] at hle
    hasMessage := fun _ _ => h.hasMessage hbusy (by simp [hupc])
    inBlock := fun _ _ _ => ⟨rfl, by
      rw [advance_blk, commitBuffer_blk, hblk, advance_nblk, commitBuffer_nblk, hnblk]
      omega⟩
    released := nofun
    lengths := fun _ => by
      rw [advance_plen, commitBuffer_plen, hplen, advance_nblk, commitBuffer_nblk, hnblk, advance_len, commitBuffer_len]
      exact ⟨by omega, by omega, hlen, hcap, by omega⟩
    content := fun _ a => by rw [advance_plen, commitBuffer_plen, hplen]; exact hm a
    pbCanonical := hwf }

/-- A `PAD` that does not raise keeps the invariant: its buffer was empty before. -/
theorem inv_pad (h : s.Inv) (hbusy : s.busy = true) (hupc : s.upc = 2) (hfits : padError s = none) :
    (advance (commitBuffer (fillBuffer s) (padLength s.len.toNat) s)).Inv := by
  obtain ⟨hlen, hcap⟩ := padError_eq_none_iff.mp hfits
  obtain ⟨hpbv, -⟩ := h.beforePad hbusy (by simp [hupc])
  obtain ⟨-, -, hpb⟩ := h.released hpbv
  have hmin := padLength_le s.len.toNat
  exact inv_commitBuffer h hbusy hupc (wf_fillBuffer h.pbCanonical) (isSome_lookup_fillBuffer hpb)
    (by simp [padLength_eq_mul]) (le_padLength _) hmin hcap (by omega)

/-- The block loop taken: the next block is one of the buffer's (44_engine.md R168). -/
theorem inv_nextBlock (h : s.Inv) (hbusy : s.busy = true) (hslot : s.upc.toNat = 132)
    (hlt : s.blk.toNat + 1 < s.nblk.toNat) : (jump slotBlock (writeBlk (s.blk + 1) s)).Inv :=
  have hblk : (s.blk + 1).toNat = s.blk.toNat + 1 := by bv_omega
  { h with
    digestLate := fun _ => by simp [h.digestLate hbusy, ← BitVec.toNat_inj, hslot, slotBlock]
    slots := by simp [slotBlock]
    idle := fun hb => absurd (hbusy.symm.trans hb) nofun
    beforePad := fun _ hle => by simp [slotBlock] at hle
    hasMessage := fun hb _ => h.hasMessage hb (by omega)
    inBlock := fun hb _ _ => ⟨(h.inBlock hb (by omega) (by omega)).1, hblk ▸ hlt⟩ }

/-- The block loop left: `UPC` is the slot of `SER`, and there is no digest yet (44_engine.md R168). -/
theorem inv_exitLoop (h : s.Inv) (hbusy : s.busy = true) (hslot : s.upc.toNat = 132) : (jump slotSer s).Inv :=
  { h with
    digestLate := fun _ => by simp [h.digestLate hbusy, ← BitVec.toNat_inj, hslot, slotSer]
    slots := by simp [slotSer]
    idle := fun hb => absurd (hbusy.symm.trans hb) nofun
    beforePad := fun _ hle => by simp [slotSer] at hle
    hasMessage := fun hb _ => h.hasMessage hb (by omega)
    inBlock := fun _ _ hle => by simp [slotSer] at hle }

/-- `SER` leaves a digest and goes to the slot of `REL`, the only one before which there is one (44_engine.md R164). -/
theorem inv_ser (h : s.Inv) (hbusy : s.busy = true) (hupc : s.upc = 133) (d : Vector Byte 32) :
    (advance (writeDigest d s)).Inv :=
  { h with
    digestHeld := fun hb => absurd (hbusy.symm.trans hb) nofun
    digestLate := fun _ => by simp [hupc]
    slots := by simp [hupc]
    idle := fun hb => absurd (hbusy.symm.trans hb) nofun
    beforePad := fun _ hle => by simp [hupc] at hle
    hasMessage := fun hb _ => h.hasMessage hb (by simp [hupc])
    inBlock := fun _ _ hle => by simp [hupc] at hle }

/-- Every micro-operation, performed from its slot, keeps the invariant. -/
theorem inv_performs {i : Instr} (h : s.Inv) (hbusy : s.busy = true) (hslot : romSlot i = s.upc.toNat)
    (hi : Performs s i t) : t.Inv := by
  have hmv : 1 ≤ s.upc.toNat → s.mv = true := h.hasMessage hbusy
  cases hi with simp only [romSlot] at hslot
  | chk hmv => exact inv_advance h hbusy hmv (by omega) (by omega)
  | chkRaise | padRaise => exact inv_raise h _
  | init => exact inv_advance (inv_writeH h _) hbusy (hmv (by omega)) (by simp; omega) (by simp; omega)
  | pad hfits => exact inv_pad h hbusy (BitVec.eq_of_toNat_eq hslot.symm) hfits
  | wld k | wex k =>
    exact inv_advance (inv_writeW h _ _) hbusy (hmv (by omega)) (by simp; omega) (by simp; omega)
  | vld => exact inv_advance (inv_writeV h _) hbusy (hmv (by omega)) (by simp; omega) (by simp; omega)
  | rnd k => exact inv_advance (inv_writeV h _) hbusy (hmv (by omega)) (by simp; omega) (by simp; omega)
  | haddLoop hlt => exact inv_nextBlock (inv_writeH h _) hbusy hslot.symm hlt
  | haddExit => exact inv_exitLoop (inv_writeH h _) hbusy hslot.symm
  | ser => exact inv_ser h hbusy (BitVec.eq_of_toNat_eq hslot.symm) _
  | rel => exact inv_rel h hbusy (BitVec.eq_of_toNat_eq hslot.symm)

/-- Settles O41: the invariant is kept by a reset, by each micro-operation in its slot, by an accepted `START` and by an idle
step. -/
theorem everyStepKeepsTheInvariant : Obligations.EveryStepKeepsTheInvariant := by
  intro s t h hstep
  have h' := inv_takeSample h
  obtain ⟨-, rfl⟩ | ⟨hbusy, i, hslot, hi⟩ | ⟨hidle, rfl⟩ | ⟨-, rfl⟩ := step_performs hstep
  · exact inv_applyReset h'
  · exact inv_performs h' hbusy hslot hi
  · exact inv_acceptStart h' hidle (wf_portSample_msg h)
  · exact h'

/-- Settles O40: after reset the core is idle, with cleared flags and no digest. -/
theorem resetMeetsTheInvariant : Obligations.ResetMeetsTheInvariant := inv_reset

end Sys2Proof.Machine

/-! ### No step stops under the invariant -/

namespace Sys2Proof.Machine

variable {s : State}

/-- In the block loop the four bytes of a `WLD` lie in the memory behind `PB` (20_memory.md R61). -/
theorem wldOffset_lt_pbCap (h : s.Inv) (hbusy : s.busy = true) {k : BitVec 6} (hk : k.toNat ≤ 15)
    (hslot : romSlot (.wld k) = s.upc.toNat) : wldOffset s.blk k + 3 < s.pbCap := by
  rw [romSlot] at hslot
  obtain ⟨hpbv, hblk⟩ := h.inBlock hbusy (by omega) (by omega)
  obtain ⟨hplen, -, -, hcap, -⟩ := h.lengths hpbv
  rw [wldOffset]
  omega

/-- Every micro-operation that has a word completes when it is performed from its slot. -/
theorem exists_performs (h : s.Inv) (hbusy : s.busy = true) {i : Instr} (hwf : i.wf = true)
    (hslot : romSlot i = s.upc.toNat) : ∃ t, Performs s i t := by
  cases i with
  | chk =>
    cases hmv : s.mv with
    | true => exact ⟨_, .chk hmv⟩
    | false => exact ⟨_, .chkRaise hmv⟩
  | init => exact ⟨_, .init⟩
  | pad =>
    cases he : padError s with
    | none => exact ⟨_, .pad he⟩
    | some e => exact ⟨_, .padRaise e he⟩
  | wld k =>
    have hk : k.toNat ≤ 15 := by simpa [Instr.wf] using hwf
    exact ⟨_, .wld k hk (wldOffset_lt_pbCap h hbusy hk hslot)⟩
  | wex k => exact ⟨_, .wex k (by simpa [Instr.wf] using hwf)⟩
  | vld => exact ⟨_, .vld⟩
  | rnd k => exact ⟨_, .rnd k⟩
  | hadd =>
    by_cases hlt : s.blk.toNat + 1 < s.nblk.toNat
    · exact ⟨_, .haddLoop hlt⟩
    · exact ⟨_, .haddExit (by omega)⟩
  | ser => exact ⟨_, .ser⟩
  | rel => exact ⟨_, .rel⟩

/-- Settles O42: a step that is no micro-operation cannot stop, and `UPC` names the slot of one that completes. -/
theorem noStepStopsUnderTheInvariant : Obligations.NoStepStopsUnderTheInvariant := by
  intro s h
  cases hrst : (portSample s).rst with
  | true => exact ⟨_, step_eq_applyReset hrst⟩
  | false =>
    cases hbusy : s.busy with
    | true =>
      obtain ⟨i, hwf, hslot⟩ := exists_romSlot_eq h.slots
      obtain ⟨t, ht⟩ := exists_performs (inv_takeSample h) hbusy hwf hslot
      exact ⟨t, (step_eq_exec hrst hbusy hwf hslot).trans (exec_eq_next_iff.mpr ht)⟩
    | false =>
      cases hstart : (portSample s).start with
      | true => exact ⟨_, step_eq_acceptStart hrst hbusy hstart⟩
      | false => exact ⟨_, step_eq_takeSample hrst hbusy hstart⟩

end Sys2Proof.Machine

/-! ### The writers of each register -/

namespace Sys2Proof.Machine

variable {i : Instr} {s t : State}

theorem performs_h (h : Performs s i t) : t.h = s.h ∨ i = .init ∨ i = .hadd := by
  cases h <;> simp

theorem performs_v (h : Performs s i t) : t.v = s.v ∨ i = .vld ∨ ∃ k, i = .rnd k := by
  cases h <;> simp

theorem performs_w (h : Performs s i t) (j : Fin 64) :
    t.w[j] = s.w[j] ∨ ∃ k : BitVec 6, k.toNat = j.val ∧ (i = .wld k ∨ i = .wex k) := by
  have hset (k : BitVec 6) (x : Word) : (writeW (index k) x s).w[j] = s.w[j] ∨ k.toNat = j.val := by
    by_cases hk : k.toNat = j.val
    · exact .inr hk
    · exact .inl (Vector.getElem_set_ne k.isLt j.isLt hk)
  cases h with
  | wld k => exact (hset k _).imp_right fun hk => ⟨k, hk, .inl rfl⟩
  | wex k => exact (hset k _).imp_right fun hk => ⟨k, hk, .inr rfl⟩
  | _ => simp

theorem performs_digest (h : Performs s i t) :
    t.digest = s.digest ∨ i = .ser ∨ (t.digest = none ∧ (i = .chk ∨ i = .pad)) := by
  cases h <;> simp

theorem performs_blk (h : Performs s i t) : t.blk = s.blk ∨ i = .hadd := by
  cases h <;> simp

/-- No micro-operation writes what is the host's or was latched with `START` (10_state.md R25, R28). -/
theorem performs_host (h : Performs s i t) :
    t.len = s.len ∧ t.mv = s.mv ∧ t.msg = s.msg ∧ t.capExtra = s.capExtra ∧ t.inputs = s.inputs := by
  cases h <;> simp

/-- Settles O36, register by register over everything a micro-operation can do. -/
theorem registersHaveOnlyTheirWriters : Obligations.RegistersHaveOnlyTheirWriters := by
  intro i s t h
  have h := exec_eq_next_iff.mp h
  exact ⟨performs_h h, performs_v h, performs_w h, performs_digest h, performs_blk h, performs_host h⟩

/-- A micro-operation that neither fills nor releases the buffer keeps it with its registers (10_state.md R26). -/
theorem performs_buffer (h : Performs s i t) (hpad : i ≠ .pad) (hrel : i ≠ .rel) (hchk : i = .chk → s.mv = true) :
    t.pb = s.pb ∧ t.plen = s.plen ∧ t.nblk = s.nblk ∧ t.pbv = s.pbv := by
  cases h with
  | pad | padRaise => exact absurd rfl hpad
  | rel => exact absurd rfl hrel
  | chkRaise hmv => exact absurd (hmv.symm.trans (hchk rfl)) nofun
  | _ => simp

theorem lookup_fillBuffer_of_padLength_le {a : Nat} (h : padLength s.len.toNat ≤ a) :
    Memory.lookup (fillBuffer s) a = Memory.lookup s.pb a := by
  have hp : padLength s.len.toNat = s.len.toNat + 1 + padZeros s.len.toNat + 8 := rfl
  rw [lookup_fillBuffer]
  repeat rw [if_neg (by omega)]

/-- Settles O37: only `PAD`, `REL` and an error touch the buffer, and `fillBuffer` writes below the padded length only. -/
theorem bufferHasOnlyItsWriters : Obligations.BufferHasOnlyItsWriters := by
  refine ⟨fun i s t hpad hrel hchk h => ?_, fun s t hmv h => ?_, fun s t hlen hcap h a ha => ?_⟩
  · obtain ⟨hpb, hregs⟩ := performs_buffer (exec_eq_next_iff.mp h) hpad hrel (absurd · hchk)
    exact ⟨fun a => by rw [hpb], hregs⟩
  · obtain ⟨hpb, hregs⟩ := performs_buffer (exec_eq_next_iff.mp h) nofun nofun fun _ => hmv
    exact ⟨fun a => by rw [hpb], hregs⟩
  · cases exec_eq_next_iff.mp h with
    | pad => rw [advance_pb, commitBuffer_pb, lookup_fillBuffer_of_padLength_le ha]
    | padRaise e he => exact absurd ((padError_eq_none_iff.mpr ⟨hlen, hcap⟩).symm.trans he) nofun

/-- The two errors `PAD` can raise have the codes 2 and 3 (60_exceptions.md R192, R193). -/
theorem errCode_of_padError {e : ErrorKind} (h : padError s = some e) : errCode e = 2 ∨ errCode e = 3 := by
  obtain ⟨-, he⟩ | ⟨-, -, he⟩ | ⟨-, -, he⟩ := padError_cases s <;> rw [he] at h <;> cases h
  · exact .inr rfl
  · exact .inl rfl

/-- Settles O38, over everything a micro-operation can do. -/
theorem onlyChkAndPadRaise : Obligations.OnlyChkAndPadRaise := by
  intro i s t h
  cases exec_eq_next_iff.mp h with
  | rel => exact .inr (.inl ⟨rfl, rfl, rfl, rfl, rfl⟩)
  | chkRaise => exact .inr (.inr (.inl ⟨rfl, rfl, rfl, rfl, rfl⟩))
  | padRaise e he => exact .inr (.inr (.inr ⟨rfl, rfl, rfl, rfl, errCode_of_padError he⟩))
  | _ => simp

end Sys2Proof.Machine

/-! ### The message port -/

namespace Sys2Proof.Machine

/-- The port `msg_addr` during a step: the offsets that `PAD` reads when the step performs the micro-operation of slot 2. -/
theorem portMsgAddrs_eq (s : State) : portMsgAddrs s =
    if (portSample s).rst = false ∧ s.busy = true ∧ s.upc = 2 then (padReads s).map (BitVec.ofNat 64) else [] := by
  have hslot : fetch s = some (encode .pad) ↔ s.upc = 2 := by
    constructor
    · exact fun h => BitVec.eq_of_toNat_eq (romWord_eq_some_encode (i := .pad) rfl h).symm
    · exact fun h => by rw [fetch, h]; rfl
  simp only [portMsgAddrs, hslot]

theorem padReads_eq (s : State) : padReads s =
    if s.len.toNat < 2 ^ 61 ∧ padLength s.len.toNat ≤ s.pbCap then List.range s.len.toNat else [] := by
  rw [← msgAddrs]
  cases he : padError s with
  | none => rw [padReads_of_none he, if_pos (padError_eq_none_iff.mp he)]
  | some e => rw [padReads_of_error he, if_neg (by rw [← padError_eq_none_iff, he]; nofun)]

theorem portSample_rst_eq_false_iff (s : State) :
    (portSample s).rst = false ↔ ∀ p, s.inputs.head? = some p → p.rst = false := by
  cases hin : s.inputs with
  | nil => simp [portSample_nil hin, PortIn.rest]
  | cons p ps => simp [portSample_cons hin]

/-- When the port `msg_addr` asks for bytes at all, and for which. -/
theorem portMsgAddrs_eq_range (s : State) : portMsgAddrs s =
    if (∀ p, s.inputs.head? = some p → p.rst = false) ∧ s.busy = true ∧ s.upc = 2 ∧ s.len.toNat < 2 ^ 61 ∧
        padLength s.len.toNat ≤ s.pbCap then
      (List.range s.len.toNat).map (BitVec.ofNat 64)
    else [] := by
  simp only [portMsgAddrs_eq, padReads_eq, portSample_rst_eq_false_iff]
  split_ifs <;> tauto

/-- Settles O49 from the one case in which the port asks for bytes. -/
theorem messagePortAsksForEachByteOnce : Obligations.MessagePortAsksForEachByteOnce := by
  refine ⟨fun s hbusy hrst hupc hlen hcap => ?_, fun s h => ?_, fun s a ha => ?_, fun s hinv hmv => ?_⟩
  · rw [portMsgAddrs_eq_range, if_pos ⟨hrst, hbusy, hupc, hlen, hcap⟩]
    exact ⟨by simp, fun i hi => by simp [hi]⟩
  · rw [portMsgAddrs_eq_range, if_neg]
    rintro ⟨hrst, hbusy, hupc, hlen, hcap⟩
    obtain h | h | h | h | ⟨p, hp, h⟩ := h
    · exact absurd (hbusy.symm.trans h) nofun
    · exact h hupc
    · omega
    · omega
    · exact absurd ((hrst p hp).symm.trans h) nofun
  · rw [portMsgAddrs_eq_range] at ha
    split at ha
    · obtain ⟨i, hi, rfl⟩ := List.mem_map.mp ha
      exact (Nat.mod_le _ _).trans_lt (List.mem_range.mp hi)
    · exact absurd ha List.not_mem_nil
  · rw [portMsgAddrs_eq_range, if_neg]
    rintro ⟨-, hbusy, hupc, -⟩
    exact absurd (hmv.symm.trans (hinv.hasMessage hbusy (by simp [hupc]))) nofun

end Sys2Proof.Machine

/-! ### The digest port -/

namespace Sys2Proof.Machine

/-- A byte list folded into 256 bits from the right: bit `j` of the result is bit `j % 8` of byte `j / 8`. -/
theorem getLsbD_foldr_pack (bs : List Byte) {j : Nat} (hj : j < 256) :
    (bs.foldr (fun b (acc : BitVec 256) => (acc <<< 8) ||| b.zeroExtend 256) 0).getLsbD j =
      (bs.getD (j / 8) 0).getLsbD (j % 8) := by
  induction bs generalizing j with
  | nil => simp
  | cons b bs ih =>
    by_cases hlow : j < 8
    · simp [hlow, hj, Nat.div_eq_of_lt hlow, Nat.mod_eq_of_lt hlow]
    · have hdiv : j / 8 = (j - 8) / 8 + 1 := by omega
      have hmod : j % 8 = (j - 8) % 8 := by omega
      have hb : b.getLsbD j = false := BitVec.getLsbD_of_ge _ _ (by omega)
      rw [List.foldr_cons, BitVec.getLsbD_or, BitVec.getLsbD_shiftLeft, ih (by omega), hdiv, hmod]
      simp [hlow, hj, hb]

/-- Byte `i` of the digest is on the wires `255 - 8 * i` down to `248 - 8 * i` (10_state.md R34). -/
theorem extractLsb'_packBytes (d : Vector Byte 32) (i : Fin 32) :
    (packBytes d).extractLsb' (248 - 8 * i.val) 8 = d[i] := by
  have hi := i.isLt
  apply BitVec.eq_of_getLsbD_eq
  intro k hk
  have hdiv : (248 - 8 * i.val + k) / 8 = 31 - i.val := by omega
  have hmod : (248 - 8 * i.val + k) % 8 = k := by omega
  have hbyte : d.toList.reverse.getD (31 - i.val) 0 = d[i] := by
    rw [List.getD_eq_getElem?_getD, List.getElem?_reverse (by simp; omega)]
    simp [show 32 - 1 - (31 - i.val) = i.val by omega]
  rw [BitVec.getLsbD_extractLsb', packBytes, List.foldl_eq_foldr_reverse, getLsbD_foldr_pack _ (by omega), hdiv, hmod,
    hbyte, decide_eq_true hk, Bool.true_and]

/-- Settles O22: each byte of the digest is read off its wires. -/
theorem digestPortShowsTheDigest : Obligations.DigestPortShowsTheDigest := by
  refine ⟨fun s d hv hd => ⟨packBytes d, ?_, extractLsb'_packBytes d⟩, fun s hv => ?_⟩
  · simp [portDigest, hv, hd]
  · simp [portDigest, hv]

end Sys2Proof.Machine

/-! ### Values after reset, and the constants -/

namespace Sys2Proof.Machine

/-- Settles O20: each value stands in `State.reset`. -/
theorem resetStateHasTheValuesOfTheSpec : Obligations.ResetStateHasTheValuesOfTheSpec :=
  ⟨rfl, rfl, rfl, rfl, rfl, rfl, rfl, rfl, rfl, rfl, rfl, rfl, rfl⟩

/-- The first 64 prime numbers, up to 311. -/
def firstPrimes : List Nat :=
  [2, 3, 5, 7, 11, 13, 17, 19, 23, 29, 31, 37, 41, 43, 47, 53, 59, 61, 67, 71, 73, 79, 83, 89, 97, 101, 103, 107, 109,
   113, 127, 131, 137, 139, 149, 151, 157, 163, 167, 173, 179, 181, 191, 193, 197, 199, 211, 223, 227, 229, 233, 239,
   241, 251, 257, 263, 269, 271, 277, 281, 283, 293, 307, 311]

/-- Up to 311 a divisor below the number makes one of at most 17, since `18 * 18 > 311`. -/
theorem exists_small_divisor {p d : Nat} (hp : p ≤ 311) (hd : 2 ≤ d) (hdp : d < p) (hdvd : p % d = 0) :
    ∃ e ≤ 17, 2 ≤ e ∧ e < p ∧ p % e = 0 := by
  have hle : p.minFac ≤ d := Nat.minFac_le_of_dvd hd (Nat.dvd_of_mod_eq_zero hdvd)
  have hnp : ¬ p.Prime := fun h => by
    have := h.minFac_eq
    omega
  have hsq := Nat.minFac_sq_le_self (by omega) hnp
  have h2 := (Nat.minFac_prime (n := p) (by omega)).two_le
  exact ⟨p.minFac, by nlinarith, h2, by omega, Nat.mod_eq_zero_of_dvd p.minFac_dvd⟩

/-- Trial division by the numbers up to 17, which decides the numbers up to 311. -/
abbrev PassesTrial (p : Nat) : Prop := 2 ≤ p ∧ ∀ e ≤ 17, 2 ≤ e → e < p → p % e ≠ 0

/-- The list against trial division, in 13 rows of 24 numbers each. -/
theorem filter_firstPrimes_row : ∀ q : Fin 13, firstPrimes.filter (· / 24 = q.val) =
    (List.range' (24 * q.val) 24).filter (PassesTrial ·) := by
  decide

theorem mem_firstPrimes_iff_passesTrial {p : Nat} (hp : p ≤ 311) : p ∈ firstPrimes ↔ PassesTrial p := by
  have hq : p / 24 < 13 := by omega
  have hrow : 24 * (p / 24) ≤ p ∧ p < 24 * (p / 24) + 24 := by omega
  calc p ∈ firstPrimes ↔ p ∈ firstPrimes.filter (· / 24 = p / 24) := by simp
    _ ↔ PassesTrial p := by
      rw [filter_firstPrimes_row ⟨p / 24, hq⟩]
      simp [hrow, PassesTrial]

theorem mem_firstPrimes_iff (p : Nat) :
    p ∈ firstPrimes ↔ 2 ≤ p ∧ p ≤ 311 ∧ ∀ d, 2 ≤ d → d < p → p % d ≠ 0 := by
  have hmax : ∀ q ∈ firstPrimes, q ≤ 311 := by decide
  constructor
  · intro h
    have hp := hmax p h
    obtain ⟨h2, hsmall⟩ := (mem_firstPrimes_iff_passesTrial hp).mp h
    refine ⟨h2, hp, fun d hd hdp hdvd => ?_⟩
    obtain ⟨e, he, h2e, hep, hmod⟩ := exists_small_divisor hp hd hdp hdvd
    exact hsmall e he h2e hep hmod
  · rintro ⟨h2, hp, hall⟩
    exact (mem_firstPrimes_iff_passesTrial hp).mpr ⟨h2, fun e _ => hall e⟩

/-- The word `w` is the first 32 bits of the fractional part of the root number `k` of `p`, whose whole part is `c`. -/
def IsRootFraction (k p : Nat) (w : Word) (c : Nat) : Prop :=
  (c * 2 ^ 32 + w.toNat) ^ k ≤ p * 2 ^ (32 * k) ∧ p * 2 ^ (32 * k) < (c * 2 ^ 32 + w.toNat + 1) ^ k

theorem kTable_isRootFraction :
    ∀ t : Fin 64, ∃ c < 7, IsRootFraction 3 (firstPrimes.getD t 0) kTable[t] c := by
  unfold IsRootFraction
  decide

theorem iv_isRootFraction :
    ∀ i : Fin 8, ∃ c < 5, IsRootFraction 2 (firstPrimes.getD i 0) iv[i] c := by
  unfold IsRootFraction
  decide

/-- Settles O28, with the 64 primes written out. -/
theorem constantsAreFractionalRoots : Obligations.ConstantsAreFractionalRoots := by
  refine ⟨firstPrimes, rfl, by decide, mem_firstPrimes_iff, fun t p hp => ?_, fun i p hp => ?_⟩
  · obtain ⟨c, -, hc⟩ := kTable_isRootFraction t
    rw [List.getD_eq_getElem?_getD, hp] at hc
    exact ⟨c, hc⟩
  · obtain ⟨c, -, hc⟩ := iv_isRootFraction i
    rw [List.getD_eq_getElem?_getD, hp] at hc
    exact ⟨c, hc⟩

end Sys2Proof.Machine

/-! ### The length field as a big-endian number -/

namespace Sys2Proof.Machine

theorem toNat_bitLength {n : Nat} (h : n < 2 ^ 61) : (bitLength n).toNat = 8 * n := by
  rw [bitLength, BitVec.toNat_ofNat, Nat.mod_eq_of_lt (by omega)]

/-- The `k` low bytes of a number, highest first. -/
theorem foldl_lowBytes {w : Nat} (x : BitVec w) (k acc : Nat) :
    ((List.range k).reverse.map fun i => x.extractLsb' (8 * i) 8).foldl (fun acc b => acc * 256 + b.toNat) acc =
      acc * 256 ^ k + x.toNat % 256 ^ k := by
  induction k generalizing acc with
  | zero => simp [Nat.mod_one]
  | succ k ih =>
    have hbyte : (x.extractLsb' (8 * k) 8).toNat = x.toNat / 256 ^ k % 256 := by
      rw [BitVec.extractLsb'_toNat, Nat.shiftRight_eq_div_pow, Nat.pow_mul]
    rw [List.range_succ, List.reverse_concat, List.map_cons, List.foldl_cons, ih, hbyte, Nat.mod_pow_succ]
    ring

theorem foldl_bytes64 (l : BitVec 64) : (bytes64 l).foldl (fun acc b => acc * 256 + b.toNat) 0 = l.toNat := by
  have hlow : bytes64 l = (List.range 8).reverse.map fun i => l.extractLsb' (8 * i) 8 := rfl
  have hlt : l.toNat < 256 ^ 8 := l.isLt
  rw [hlow, foldl_lowBytes, Nat.mod_eq_of_lt hlt, Nat.zero_mul, Nat.zero_add]

/-- Settles O33: the eight bytes are those of the 64-bit number `8 * n`, which does not wrap below `2 ^ 61`. -/
theorem lengthFieldKeepsAllBits : Obligations.LengthFieldKeepsAllBits :=
  fun _ hn => ⟨bytes64_length _, (foldl_bytes64 _).trans (toNat_bitLength hn)⟩

end Sys2Proof.Machine

/-! ### The decoder and the encoder are inverse, and the words of the ROM -/

namespace Sys2Proof.Machine

variable {u : MicroWord} {i j : Instr}

/-- Settles O25, by the round trip of a word's fields. -/
theorem decodeOfEncodeIsTheMicroOp : Obligations.DecodeOfEncodeIsTheMicroOp := fun _ => decode_encode

theorem noIndex_eq_ok {t : BitVec 6} (h : noIndex t j = .ok i) : t = 0#6 ∧ j = i := by
  unfold noIndex at h
  split at h
  case isTrue ht => injection h with h; exact ⟨ht, h⟩
  case isFalse => cases h

theorem ranged_eq_ok (h : ranged j = .ok i) : j.wf = true ∧ j = i := by
  unfold ranged at h
  split at h
  case isTrue hwf => injection h with h; exact ⟨hwf, h⟩
  case isFalse => cases h

/-- Each row of the opcode map answers a well-formed micro-operation with the row's word (30_encoding.md R72). -/
theorem decodeOp_eq_ok {op : Nat} {t : BitVec 6} (h : decodeOp op t = .ok i) :
    i.wf = true ∧ encode i = microWord (BitVec.ofNat 4 op) t := by
  unfold decodeOp at h
  split at h
  case h_4 | h_5 | h_7 =>
    obtain ⟨hwf, rfl⟩ := ranged_eq_ok h
    exact ⟨hwf, rfl⟩
  case h_1 | h_2 | h_3 | h_6 | h_8 | h_9 | h_10 =>
    obtain ⟨rfl, rfl⟩ := noIndex_eq_ok h
    exact ⟨rfl, rfl⟩
  case h_11 => cases h

/-- A word with `Z = 0` is its `OP` and its `T` (30_encoding.md R71). -/
theorem microWord_fields (hz : fieldZ u = 0#2) : microWord (fieldOp u) (fieldT u) = u := by
  have hu := u.isLt
  have hz' := congrArg BitVec.toNat hz
  apply BitVec.eq_of_toNat_eq
  simp only [fieldZ, fieldOp, fieldT, microWord, BitVec.extractLsb'_toNat, BitVec.toNat_ofNat,
    Nat.shiftRight_eq_div_pow] at hz' ⊢
  omega

/-- The words the decoder accepts are those of the well-formed micro-operations (30_encoding.md R72, R74). -/
theorem decode_eq_ok_iff : decode u = .ok i ↔ i.wf = true ∧ encode i = u := by
  constructor
  · intro h
    rw [decode] at h
    split at h
    case isTrue hz => simpa [microWord_fields hz] using decodeOp_eq_ok h
    case isFalse => cases h
  · rintro ⟨hwf, rfl⟩
    exact decode_encode hwf

/-- Settles O26. -/
theorem encodeOfDecodeIsTheWord : Obligations.EncodeOfDecodeIsTheWord := fun _ _ => decode_eq_ok_iff.mp

theorem toNat_microWord (op : BitVec 4) (t : BitVec 6) : (microWord op t).toNat = 256 * op.toNat + t.toNat := by
  rw [microWord, BitVec.toNat_ofNat]
  omega

/-- The words of the well-formed micro-operations, row by row of the opcode map (30_encoding.md R72). -/
theorem exists_encode_eq_iff : (∃ i : Instr, i.wf = true ∧ encode i = u) ↔
    ∃ op t, u.toNat = 256 * op + t ∧ t < 64 ∧ ((op = 0x4 ∧ t ≤ 15) ∨ (op = 0x5 ∧ 16 ≤ t) ∨ op = 0x7 ∨
      (t = 0 ∧ (op = 0x1 ∨ op = 0x2 ∨ op = 0x3 ∨ op = 0x6 ∨ op = 0x8 ∨ op = 0x9 ∨ op = 0xA))) := by
  constructor
  · rintro ⟨i, hwf, rfl⟩
    cases i with
    | wld t => exact ⟨4, t.toNat, toNat_microWord _ _, t.isLt, .inl ⟨rfl, by simpa [Instr.wf] using hwf⟩⟩
    | wex t => exact ⟨5, t.toNat, toNat_microWord _ _, t.isLt, .inr (.inl ⟨rfl, by simpa [Instr.wf] using hwf⟩)⟩
    | rnd t => exact ⟨7, t.toNat, toNat_microWord _ _, t.isLt, .inr (.inr (.inl rfl))⟩
    | chk | init | pad | vld | hadd | ser | rel => exact ⟨_, 0, toNat_microWord _ _, by decide, by decide⟩
  · rintro ⟨op, t, hu, ht, hrow⟩
    have hT : (BitVec.ofNat 6 t).toNat = t := Nat.mod_eq_of_lt ht
    have hword {o : BitVec 4} (ho : o.toNat = op) : microWord o (BitVec.ofNat 6 t) = u :=
      BitVec.eq_of_toNat_eq (by rw [toNat_microWord, ho, hT, hu])
    obtain ⟨rfl, hle⟩ | ⟨rfl, hle⟩ | rfl | ⟨rfl, hop⟩ := hrow
    · exact ⟨.wld (BitVec.ofNat 6 t), decide_eq_true (by omega), hword rfl⟩
    · exact ⟨.wex (BitVec.ofNat 6 t), decide_eq_true (by omega), hword rfl⟩
    · exact ⟨.rnd (BitVec.ofNat 6 t), rfl, hword rfl⟩
    · obtain rfl | rfl | rfl | rfl | rfl | rfl | rfl := hop
      · exact ⟨.chk, rfl, hword rfl⟩
      · exact ⟨.init, rfl, hword rfl⟩
      · exact ⟨.pad, rfl, hword rfl⟩
      · exact ⟨.vld, rfl, hword rfl⟩
      · exact ⟨.hadd, rfl, hword rfl⟩
      · exact ⟨.ser, rfl, hword rfl⟩
      · exact ⟨.rel, rfl, hword rfl⟩

/-- Settles O24: a word is accepted when it is the word of a well-formed micro-operation, and those have `Z = 0`. -/
theorem decodeAcceptsExactlyTheLegalWords : Obligations.DecodeAcceptsExactlyTheLegalWords := by
  intro u op z t hu hz ht
  simp only [decode_eq_ok_iff, exists_encode_eq_iff]
  constructor
  · rintro ⟨op', t', hu', ht', hrow⟩
    obtain ⟨rfl, rfl, rfl⟩ : op' = op ∧ z = 0 ∧ t' = t := by omega
    exact ⟨rfl, hrow⟩
  · rintro ⟨rfl, hrow⟩
    exact ⟨op, t, hu, ht, hrow⟩

/-- Settles O23, word by word. -/
theorem decodeReadsTheTableWords : Obligations.DecodeReadsTheTableWords := by
  unfold Obligations.DecodeReadsTheTableWords
  decide

/-- The word in the slot of a micro-operation, and what it decodes to. -/
theorem romWord_and_decode_of_slot {n : Nat} (hwf : i.wf = true) (hslot : romSlot i = n) (hword : encode i = u) :
    romWord n = some u ∧ decode u = .ok i := by
  subst hslot hword
  exact ⟨romWord_romSlot hwf, decode_encode hwf⟩

theorem isSome_romWord_iff (n : Nat) : (romWord n).isSome = true ↔ n < 135 := by
  constructor
  · intro h
    by_contra hn
    simp [romWord_eq_none (show 135 ≤ n by omega)] at h
  · intro h
    obtain ⟨i, hwf, rfl⟩ := exists_romSlot_eq (show n ≤ 134 by omega)
    rw [romWord_romSlot hwf]
    rfl

/-- Settles O27: every slot of the ROM is the slot of one micro-operation and holds its word. -/
theorem everyLegalWordHasOneSlot : Obligations.EveryLegalWordHasOneSlot := by
  have hT {k : Nat} (hk : k < 64) : (BitVec.ofNat 6 k).toNat = k := Nat.mod_eq_of_lt hk
  refine ⟨isSome_romWord_iff, by decide, by decide, fun n h h' => ?_, fun n h h' => ?_, fun n h h' => ?_,
    fun n u h => ?_, fun i hwf => ?_⟩
  · have hk := hT (k := n - 3) (by omega)
    exact romWord_and_decode_of_slot (decide_eq_true (by omega)) (by rw [romSlot]; omega)
      (by rw [encode, microWord, hk]; rfl)
  · have hk := hT (k := n - 3) (by omega)
    exact romWord_and_decode_of_slot (decide_eq_true (by omega)) (by rw [romSlot]; omega)
      (by rw [encode, microWord, hk]; rfl)
  · have hk := hT (k := n - 68) (by omega)
    exact romWord_and_decode_of_slot rfl (by rw [romSlot]; omega) (by rw [encode, microWord, hk]; rfl)
  · obtain ⟨i, hwf, -, henc⟩ := romWord_eq_some h
    exact ⟨i, decode_eq_ok_iff.mpr ⟨hwf, henc⟩⟩
  · exact ⟨romSlot i, romWord_romSlot hwf, fun k hk => (romWord_eq_some_encode hwf hk).symm⟩

/-- Settles O9: the ranges of `T` are the conditions of the two meanings. -/
theorem reservedIndexIsRefused : Obligations.ReservedIndexIsRefused :=
  ⟨fun _ _ h => if_neg (by omega), fun _ _ h => if_neg (by omega)⟩

/-- Settles O16: the word in slot `UPC` is that of the micro-operation with this slot. -/
theorem stepRunsTheFetchedMicroOp : Obligations.StepRunsTheFetchedMicroOp := by
  intro s u i hbusy hrst hu hi
  obtain ⟨hwf, rfl⟩ := decode_eq_ok_iff.mp hi
  exact step_eq_exec ((portSample_rst_eq_false_iff s).mpr hrst) hbusy hwf (romWord_eq_some_encode hwf hu)

end Sys2Proof.Machine

/-! ### Agreement of two states: no micro-operation reads a register that the run has not written -/

namespace Sys2Proof.Machine

variable {s t s' : State}

theorem agree_applyReset (h : s.Agree t) : (applyReset s).Agree (applyReset t) :=
  { h with
    pb := rfl, plen := rfl, nblk := rfl, pbv := rfl, digest := rfl, len := rfl, mv := rfl, blk := rfl, upc := rfl
    busy := rfl, done := rfl, dvalid := rfl, err := rfl, h := nofun, v := nofun, w := nofun }

theorem agree_raise (h : s.Agree t) (e : ErrorKind) : (raise e s).Agree (raise e t) :=
  { h with
    pb := rfl, plen := rfl, nblk := rfl, pbv := rfl, digest := rfl, upc := rfl, busy := rfl, done := rfl
    dvalid := rfl, err := rfl, h := nofun, v := nofun, w := nofun }

theorem agree_rel (h : s.Agree t) : (jump 0 (flagsEnd (release s))).Agree (jump 0 (flagsEnd (release t))) :=
  { h with
    pb := rfl, plen := rfl, nblk := rfl, pbv := rfl, upc := rfl, busy := rfl, done := rfl, dvalid := rfl
    h := nofun, v := nofun, w := nofun }

theorem agree_takeSample (h : s.Agree t) : (takeSample s).Agree (takeSample t) :=
  { h with inputs := congrArg List.tail h.inputs }

theorem agree_acceptStart (h : s.Agree t) (p : PortIn) : (acceptStart p s).Agree (acceptStart p t) :=
  { h with
    digest := rfl, len := rfl, mv := rfl, blk := rfl, upc := rfl, busy := rfl, done := rfl, dvalid := rfl, err := rfl
    msg := rfl
    h := fun _ hle => absurd hle (Nat.not_succ_le_zero _)
    v := fun _ hle => absurd hle (Nat.not_succ_le_zero _)
    w := fun _ _ _ hlt => absurd hlt (Nat.not_lt_zero _) }

theorem agree_commitBuffer (h : s.Agree t) (m : Memory) (n : Nat) :
    (commitBuffer m n s).Agree (commitBuffer m n t) :=
  { h with pb := rfl, plen := rfl, nblk := rfl, pbv := rfl }

theorem agree_writeBlk (h : s.Agree t) (b : Len) : (writeBlk b s).Agree (writeBlk b t) := { h with blk := rfl }

theorem agree_writeDigest (h : s.Agree t) (d : Vector Byte 32) : (writeDigest d s).Agree (writeDigest d t) :=
  { h with digest := rfl }

theorem agree_writeH (h : s.Agree t) (x : Vector Word 8) : (writeH x s).Agree (writeH x t) :=
  { h with h := fun _ _ => rfl }

theorem agree_writeV (h : s.Agree t) (x : Vector Word 8) : (writeV x s).Agree (writeV x t) :=
  { h with v := fun _ _ _ => rfl }

theorem agree_writeW (h : s.Agree t) (i : Fin 64) (x : Word) : (writeW i x s).Agree (writeW i x t) :=
  { h with
    w := fun hbusy hle j hj => by
      have hw := h.w hbusy hle j hj
      simp only [writeW_w, Fin.getElem_fin] at hw ⊢
      simp only [Vector.getElem_set, hw] }

/-- The default advance keeps the agreement when the register that the slot writes agrees: `H` in slot 1, `V` in slot
67, `W[j]` in slot `j + 3` (10_state.md section 8). -/
theorem agree_advance (h : s.Agree t) (hslots : s.upc.toNat ≤ 134) (hh : s.upc.toNat = 1 → s.h = t.h)
    (hv : s.upc.toNat = 67 → s.v = t.v) (hw : ∀ j : Fin 64, j.val + 3 = s.upc.toNat → s.w[j] = t.w[j]) :
    (advance s).Agree (advance t) :=
  have hupc : (advance s).upc.toNat = s.upc.toNat + 1 := by rw [advance_upc]; bv_omega
  { h with
    upc := congrArg (· + 1) h.upc
    h := fun hbusy hle => by
      by_cases h1 : s.upc.toNat = 1
      · exact hh h1
      · exact h.h hbusy (by omega)
    v := fun hbusy hle hle' => by
      by_cases h67 : s.upc.toNat = 67
      · exact hv h67
      · exact h.v hbusy (by omega) (by omega)
    w := fun hbusy hle j hj => by
      by_cases hslot : j.val + 3 = s.upc.toNat
      · exact hw j hslot
      · exact h.w hbusy (by omega) j (by omega) }

/-- A jump of the block loop keeps the agreement: in slots 3 and 133 nothing of `V` and `W` may still be read. -/
theorem agree_jump (h : s.Agree t) {u : BitVec 8} (hu : u = slotBlock ∨ u = slotSer) (hh : s.h = t.h) :
    (jump u s).Agree (jump u t) :=
  have hu' : u.toNat = 3 ∨ u.toNat = 133 := hu.imp (congrArg BitVec.toNat) (congrArg BitVec.toNat)
  { h with
    upc := rfl
    h := fun _ _ => hh
    v := fun _ hle hle' => by rw [jump_upc] at hle hle'; omega
    w := fun _ hle j hj => by rw [jump_upc] at hle hj; omega }

/-! What a micro-operation reads is the same in two states that agree. -/

theorem State.Agree.pbCap_eq (h : s.Agree t) : s.pbCap = t.pbCap := by
  rw [State.pbCap, State.pbCap, h.capExtra]

theorem State.Agree.portSample_eq (h : s.Agree t) : portSample s = portSample t := by
  rw [portSample, portSample, h.inputs]

theorem State.Agree.padError_eq (h : s.Agree t) : padError s = padError t := by
  rw [padError, padError, h.len, h.pbCap_eq]

theorem State.Agree.fillBuffer_eq (h : s.Agree t) : fillBuffer s = fillBuffer t := by
  have hmsg : msgByte s = msgByte t := by
    funext a
    rw [msgByte, msgByte, h.msg]
  simp only [fillBuffer, messageBytes, h.pb, h.len, hmsg]

/-- A byte below `PLEN` holds a value, so its read draws none (41_padder.md R120). -/
theorem State.Agree.pbByte_eq (h : s.Agree t) (hinv : s.Inv) (hpbv : s.pbv = true) {a : Nat} (ha : a < s.plen.toNat) :
    pbByte s a = pbByte t a := by
  obtain ⟨b, hb⟩ := Option.isSome_iff_exists.mp ((hinv.content hpbv a).mpr ha)
  rw [pbByte_of_lookup hb, pbByte_of_lookup (h.pb ▸ hb)]

/-- The word that `WLD` loads lies in the current block, below `PLEN` (10_state.md R39). -/
theorem State.Agree.pbWord_eq (h : s.Agree t) (hinv : s.Inv) (hbusy : s.busy = true) {k : BitVec 6} (hk : k.toNat ≤ 15)
    (hslot : romSlot (.wld k) = s.upc.toNat) :
    pbWord s (wldOffset s.blk k) = pbWord t (wldOffset t.blk k) := by
  rw [romSlot] at hslot
  obtain ⟨hpbv, hblk⟩ := hinv.inBlock hbusy (by omega) (by omega)
  obtain ⟨hplen, -⟩ := hinv.lengths hpbv
  have hoff : wldOffset s.blk k + 3 < s.plen.toNat := by rw [wldOffset]; omega
  have hbyte {a : Nat} (ha : a ≤ wldOffset s.blk k + 3) := h.pbByte_eq hinv hpbv (a := a) (by omega)
  rw [← h.blk, pbWord, pbWord, hbyte (by omega), hbyte (by omega), hbyte (by omega), hbyte (by omega)]

/-- `WEX k` reads words below `W[k]` only (42_scheduler.md R132). -/
theorem State.Agree.wexWord_eq (h : s.Agree t) (hbusy : s.busy = true) {k : BitVec 6} (hk : 16 ≤ k.toNat)
    (hslot : romSlot (.wex k) = s.upc.toNat) : wexWord k s = wexWord k t := by
  rw [romSlot] at hslot
  have hread (m : Nat) (hm : 1 ≤ m) : readW s (indexBack k m) = readW t (indexBack k m) :=
    h.w hbusy (by omega) _ (by simp only [indexBack]; omega)
  rw [wexWord, wexWord, hread 2 (by omega), hread 7 (by omega), hread 15 (by omega), hread 16 (by omega)]

/-- Round `k` reads `V`, which `VLD` has loaded, and `W[k]`, which the schedule of this block has written. -/
theorem State.Agree.round_eq (h : s.Agree t) (hbusy : s.busy = true) {k : BitVec 6}
    (hslot : romSlot (.rnd k) = s.upc.toNat) :
    round s.v kTable[index k] (readW s (index k)) = round t.v kTable[index k] (readW t (index k)) := by
  rw [romSlot] at hslot
  have hw : readW s (index k) = readW t (index k) := h.w hbusy (by omega) _ (by simp [index]; omega)
  rw [h.v hbusy (by omega) (by omega), hw]

/-- Loading `W[k]` with one word in its slot. -/
theorem agree_advance_writeW (h : s.Agree t) {k : BitVec 6} (hslot : 3 + k.toNat = s.upc.toNat) (x : Word) :
    (advance (writeW (index k) x s)).Agree (advance (writeW (index k) x t)) := by
  refine agree_advance (agree_writeW h _ x) (by simp; omega) (by simp; omega) (by simp; omega) fun j hj => ?_
  obtain rfl : j = index k := Fin.ext (by simp [index] at hj ⊢; omega)
  simp

/-- Committing one buffer in the slot of `PAD`, which writes no register of `H`, `V` and `W`. -/
theorem agree_advance_commitBuffer (h : s.Agree t) (hupc : s.upc.toNat = 2) (m : Memory) (n : Nat) :
    (advance (commitBuffer m n s)).Agree (advance (commitBuffer m n t)) :=
  agree_advance (agree_commitBuffer h m n) (by simp; omega) (by simp; omega) (by simp; omega) (by simp; omega)

/-- Whatever a micro-operation does in its slot in one of two states that agree, it does in the other. -/
theorem agree_performs {i : Instr} (hinv : s.Inv) (hbusy : s.busy = true) (hslot : romSlot i = s.upc.toNat)
    (h : s.Agree t) (hi : Performs s i s') : ∃ t', Performs t i t' ∧ s'.Agree t' := by
  have hslots := hinv.slots
  have hH : 2 ≤ s.upc.toNat → s.h = t.h := h.h hbusy
  have hupc := hslot
  cases hi with simp only [romSlot] at hupc
  | chk hmv => exact ⟨_, .chk (h.mv ▸ hmv), agree_advance h hslots (by omega) (by omega) (by omega)⟩
  | chkRaise hmv => exact ⟨_, .chkRaise (h.mv ▸ hmv), agree_raise h _⟩
  | init =>
    exact ⟨_, .init, agree_advance (agree_writeH h iv) hslots (fun _ => rfl) (by simp; omega) (by simp; omega)⟩
  | pad hfits =>
    refine ⟨_, .pad (h.padError_eq ▸ hfits), ?_⟩
    rw [← h.fillBuffer_eq, ← h.len]
    exact agree_advance_commitBuffer h hupc.symm _ _
  | padRaise e he => exact ⟨_, .padRaise e (h.padError_eq ▸ he), agree_raise h e⟩
  | wld k hle hin =>
    refine ⟨_, .wld k hle (by rwa [← h.blk, ← h.pbCap_eq]), ?_⟩
    rw [← h.pbWord_eq hinv hbusy hle hslot]
    exact agree_advance_writeW h hupc _
  | wex k hle =>
    refine ⟨_, .wex k hle, ?_⟩
    rw [← h.wexWord_eq hbusy hle hslot]
    exact agree_advance_writeW h hupc _
  | vld =>
    refine ⟨_, .vld, ?_⟩
    rw [← hH (by omega)]
    exact agree_advance (agree_writeV h s.h) hslots (by simp; omega) (fun _ => rfl) (by simp; omega)
  | rnd k =>
    refine ⟨_, .rnd k, ?_⟩
    rw [← h.round_eq hbusy hslot]
    exact agree_advance (agree_writeV h _) hslots (by simp; omega) (fun _ => rfl) (by simp; omega)
  | haddLoop hlt =>
    refine ⟨_, .haddLoop (by rwa [← h.blk, ← h.nblk]), ?_⟩
    rw [← hH (by omega), ← h.v hbusy (by omega) (by omega), ← h.blk]
    exact agree_jump (agree_writeBlk (agree_writeH h _) _) (.inl rfl) rfl
  | haddExit hle =>
    refine ⟨_, .haddExit (by rwa [← h.blk, ← h.nblk]), ?_⟩
    rw [← hH (by omega), ← h.v hbusy (by omega) (by omega)]
    exact agree_jump (agree_writeH h _) (.inr rfl) rfl
  | ser =>
    refine ⟨_, .ser, ?_⟩
    rw [← hH (by omega)]
    exact agree_advance (agree_writeDigest h _) hslots (by simp; omega) (by simp; omega) (by simp; omega)
  | rel => exact ⟨_, .rel, agree_rel h⟩

/-- Settles O43: the two steps read the same sample and, during a run, perform the same micro-operation. -/
theorem unwrittenRegistersAreNeverRead : Obligations.UnwrittenRegistersAreNeverRead := by
  intro s t s' hinv h hstep
  have h' := agree_takeSample h
  obtain ⟨hrst, rfl⟩ | ⟨hrst, hbusy, u, i, hu, hi, hexec⟩ | ⟨hrst, hidle, hstart, rfl⟩ | ⟨hrst, hidle, hstart, rfl⟩ :=
    step_cases hstep <;> rw [h.portSample_eq] at hrst
  · exact ⟨_, step_eq_applyReset hrst, agree_applyReset h'⟩
  · obtain ⟨hwf, rfl⟩ := decode_eq_ok_iff.mp hi
    have hslot := romWord_eq_some_encode hwf hu
    obtain ⟨t', ht', hagree⟩ :=
      agree_performs (inv_takeSample hinv) hbusy hslot h' (exec_eq_next_iff.mp hexec)
    exact ⟨t', (step_eq_exec hrst (h.busy ▸ hbusy) hwf (h.upc ▸ hslot)).trans (exec_eq_next_iff.mpr ht'), hagree⟩
  · rw [h.portSample_eq] at hstart ⊢
    exact ⟨_, step_eq_acceptStart hrst (h.busy ▸ hidle) hstart, agree_acceptStart h' _⟩
  · rw [h.portSample_eq] at hstart
    exact ⟨_, step_eq_takeSample hrst (h.busy ▸ hidle) hstart, h'⟩

end Sys2Proof.Machine

/-! ### The word operations: rotations, selection and big-endian bytes -/

namespace Sys2Proof.Machine

/-- Bit `i` of a shift is bit `i + n` of the word, or a zero shifted in (R94). -/
theorem getLsbD_shr (x : Word) (n i : Nat) : (shr x n).getLsbD i = (decide (i + n < 32) && x.getLsbD (i + n)) := by
  rw [shr, BitVec.getLsbD_ushiftRight, Nat.add_comm]
  by_cases hin : i + n < 32
  · simp [hin]
  · simp [hin, BitVec.getLsbD_of_ge x (i + n) (Nat.le_of_not_lt hin)]

/-- A bit comes from the right shift while `i + n` is inside the word, and from the left shift when it wraps (R93). -/
theorem getLsbD_rotr (x : Word) {n i : Nat} (hpos : 0 < n) (hn : n < 32) (hi : i < 32) :
    (rotr x n).getLsbD i = x.getLsbD ((i + n) % 32) := by
  rw [rotr, BitVec.getLsbD_or, BitVec.getLsbD_ushiftRight, BitVec.getLsbD_shiftLeft]
  obtain hin | hwrap := Nat.lt_or_ge (i + n) 32
  · have hleft : i < 32 - n := by omega
    simp [hleft, Nat.mod_eq_of_lt hin, Nat.add_comm n]
  · have hright : x.getLsbD (n + i) = false := BitVec.getLsbD_of_ge _ _ (by omega)
    have hleft : ¬ i < 32 - n := by omega
    have hmod : (i + n) % 32 = i - (32 - n) := by omega
    simp [hright, hleft, hi, hmod]

/-- Settles O29: `shr` is the right shift, and `rotr` brings the bits it shifts out back at the top. -/
theorem rotateAndShiftByBit : Obligations.RotateAndShiftByBit := by
  intro x n i hpos hn hi
  refine ⟨getLsbD_rotr x hpos hn hi, ?_, ?_⟩
  · by_cases hin : i + n < 32 <;> simp [getLsbD_shr, hin]
  · rw [shr, BitVec.toNat_ushiftRight, Nat.shiftRight_eq_div_pow]

/-- Settles O30: exclusive or acts on each bit alone, so each sigma is its rotations and shift bit by bit. -/
theorem sigmaFunctionsByBit : Obligations.SigmaFunctionsByBit := by
  intro x i hi
  simp (disch := omega) only [smallSigma0, smallSigma1, bigSigma0, bigSigma1, BitVec.getLsbD_xor, getLsbD_rotr,
    getLsbD_shr, and_self]

/-- Settles O31: each operation acts on every bit alone, so it is a fact about three bits, with eight cases. -/
theorem chSelectsAndMajIsTheMajority : Obligations.ChSelectsAndMajIsTheMajority := by
  intro x y z i hi
  have hch : (ch x y z).getLsbD i = ((x.getLsbD i && y.getLsbD i) ^^ (!x.getLsbD i && z.getLsbD i)) := by
    simp [ch, hi]
  have hmaj : (maj x y z).getLsbD i =
      ((x.getLsbD i && y.getLsbD i) ^^ (x.getLsbD i && z.getLsbD i) ^^ (y.getLsbD i && z.getLsbD i)) := by
    simp [maj]
  rw [hch, hmaj]
  generalize x.getLsbD i = a, y.getLsbD i = b, z.getLsbD i = c
  revert a b c
  decide

/-- Four bytes stay below `2^32`, so the formula of R101 loses nothing. -/
theorem toNat_be32 (b0 b1 b2 b3 : Byte) :
    (be32 b0 b1 b2 b3).toNat = b0.toNat * 2 ^ 24 + b1.toNat * 2 ^ 16 + b2.toNat * 2 ^ 8 + b3.toNat := by
  rw [be32, BitVec.toNat_ofNat, Nat.mod_eq_of_lt (by omega)]

theorem bytes32_be32 (b0 b1 b2 b3 : Byte) : bytes32 (be32 b0 b1 b2 b3) = [b0, b1, b2, b3] := by
  have hbyte (k : Nat) (b : Byte) (h : (be32 b0 b1 b2 b3).toNat / 2 ^ k % 2 ^ 8 = b.toNat) :
      (be32 b0 b1 b2 b3).extractLsb' k 8 = b :=
    BitVec.eq_of_toNat_eq (by rw [BitVec.extractLsb'_toNat, Nat.shiftRight_eq_div_pow, h])
  rw [bytes32, hbyte 24 b0, hbyte 16 b1, hbyte 8 b2, hbyte 0 b3] <;> rw [toNat_be32] <;> omega

/-- The bytes of a word fix it: they are the digits of its value to the base 256. -/
theorem bytes32_injective : Function.Injective bytes32 := by
  intro x y h
  simp only [bytes32, List.cons.injEq, ← BitVec.toNat_inj, BitVec.extractLsb'_toNat,
    Nat.shiftRight_eq_div_pow] at h
  exact BitVec.eq_of_toNat_eq (by omega)

/-- Settles O32: `bytes32` undoes `be32`, and being injective it is also undone by it. -/
theorem bytesAndWordsAreInverse : Obligations.BytesAndWordsAreInverse :=
  ⟨fun b0 b1 b2 b3 => ⟨toNat_be32 b0 b1 b2 b3, bytes32_be32 b0 b1 b2 b3⟩, fun _ => rfl,
    fun _ b0 b1 b2 b3 h => bytes32_injective ((bytes32_be32 b0 b1 b2 b3).trans h.symm)⟩

end Sys2Proof.Machine

/-! ### The amount of padding, and the buffer `PAD` leaves -/

namespace Sys2Proof.Machine

/-- `z = (55 - LEN) mod 64`, as 41_padder.md R113 writes it. -/
theorem cast_padZeros (n : Nat) : (padZeros n : Int) = (55 - (n : Int)) % 64 := by
  simp only [padZeros]
  omega

theorem padZeros_le_of_mod_eq_zero {n z : Nat} (h : (n + 1 + z + 8) % 64 = 0) : padZeros n ≤ z := by
  simp only [padZeros]
  omega

/-- Settles O34: `PLEN` is the next multiple of 64 after `n + 8`, and the rest is arithmetic with that. -/
theorem paddingIsTheLeastThatFits : Obligations.PaddingIsTheLeastThatFits := by
  intro n
  have hmul := padLength_eq_mul n
  exact ⟨cast_padZeros n, Nat.sub_le _ _, rfl, by omega, le_padLength n, padLength_le n, by omega,
    fun _ => padZeros_le_of_mod_eq_zero, by omega, by omega⟩

/-- Byte `k` of the length field is the digit of weight `256 ^ (7 - k)` (40_word_ops.md R103). -/
theorem getElem?_bytes64 (l : BitVec 64) {k : Nat} (hk : k < 8) :
    (bytes64 l)[k]? = some (BitVec.ofNat 8 (l.toNat / 2 ^ (56 - 8 * k))) := by
  have hlow : bytes64 l = (List.range 8).map fun i => l.extractLsb' (56 - 8 * i) 8 := rfl
  rw [hlow, List.getElem?_map, List.getElem?_range hk, Option.map_some, BitVec.extractLsb',
    Nat.shiftRight_eq_div_pow]

/-- Two writes side by side are one. -/
theorem writeBytes_append (bs cs : List Byte) (m : Memory) (a : Nat) :
    Memory.writeBytes m a (bs ++ cs) = Memory.writeBytes (Memory.writeBytes m a bs) (a + bs.length) cs := by
  induction bs generalizing m a with
  | nil => rfl
  | cons b bs ih =>
    rw [List.cons_append, Memory.writeBytes, Memory.writeBytes, ih, List.length_cons, Nat.add_assoc,
      Nat.add_comm 1]

@[simp] theorem length_pad (m : List Byte) : (pad m).length = padLength m.length := by
  simp only [pad, padLength, List.length_append, List.length_singleton, List.length_replicate, bytes64_length]

variable {s : State}

/-- The four writes of `PAD` lie side by side and together write `pad` of the message at offset 0 (20_memory.md R60). -/
theorem fillBuffer_eq_writeBytes_pad (s : State) :
    fillBuffer s = Memory.writeBytes s.pb 0 (pad (messageBytes s)) := by
  have hfield : padLength s.len.toNat - 8 = s.len.toNat + (1 + padZeros s.len.toNat) := by
    simp only [padLength]
    omega
  simp only [fillBuffer, hfield, pad, writeBytes_append, messageBytes_length, List.length_append,
    List.length_singleton, List.length_replicate, Nat.zero_add, Nat.add_assoc]

theorem lookup_fillBuffer_eq_getElem?_pad {a : Nat} (h : a < padLength s.len.toNat) :
    Memory.lookup (fillBuffer s) a = (pad (messageBytes s))[a]? := by
  simp [fillBuffer_eq_writeBytes_pad, lookup_writeBytes, h]

/-- The bytes `PAD` copies are the message of `LEN` bytes behind the message port. -/
theorem eq_messageBytes {m : List Byte} (hlength : m.length = s.len.toNat)
    (hm : ∀ i, i < s.len.toNat → m[i]? = some (msgByte s i)) : m = messageBytes s := by
  apply List.ext_getElem?'
  intro i hi
  have hi : i < s.len.toNat := by simpa [hlength] using hi
  rw [hm i hi, messageBytes, msgAddrs, List.getElem?_map, List.getElem?_range hi, Option.map_some]

theorem lookup_fillBuffer_marker (s : State) : Memory.lookup (fillBuffer s) s.len.toNat = some 0x80#8 := by
  simp [lookup_fillBuffer]

theorem lookup_fillBuffer_zeroFill {a : Nat} (hgt : s.len.toNat < a) (hle : a ≤ s.len.toNat + padZeros s.len.toNat) :
    Memory.lookup (fillBuffer s) a = some 0x00#8 := by
  rw [lookup_fillBuffer, if_neg (by omega), if_neg (by omega), if_pos hle]

theorem lookup_fillBuffer_lengthField (hlen : s.len.toNat < 2 ^ 61) {k : Nat} (hk : k < 8) :
    Memory.lookup (fillBuffer s) (padLength s.len.toNat - 8 + k) =
      some (BitVec.ofNat 8 (8 * s.len.toNat / 2 ^ (56 - 8 * k))) := by
  have hp : padLength s.len.toNat = s.len.toNat + 1 + padZeros s.len.toNat + 8 := rfl
  rw [lookup_fillBuffer, if_neg (by omega), if_neg (by omega), if_neg (by omega), if_pos (by omega),
    Nat.add_sub_cancel_left, getElem?_bytes64 _ hk, toNat_bitLength hlen]

/-- `PAD` on a message whose padding fits: the filled buffer is committed (41_padder.md R119). -/
theorem exec_pad_of_fits (hlen : s.len.toNat < 2 ^ 61) (hcap : padLength s.len.toNat ≤ s.pbCap) :
    exec .pad s = .next (advance (commitBuffer (fillBuffer s) (padLength s.len.toNat) s)) :=
  exec_eq_next_iff.mpr (.pad (padError_eq_none_iff.mpr ⟨hlen, hcap⟩))

/-- Settles O4: the buffer is `fillBuffer`, read range by range. -/
theorem padBuildsTheBuffer : Obligations.PadBuildsTheBuffer := by
  refine ⟨decode_encode (i := .pad) rfl, rfl, ?_⟩
  intro s n z plen hn hz hplen hlen hcap
  subst hn
  obtain rfl : z = padZeros s.len.toNat := by exact_mod_cast hz.trans (cast_padZeros _).symm
  obtain rfl : plen = padLength s.len.toNat := hplen
  refine ⟨fillBuffer s, ?_, lookup_fillBuffer_marker s, fun _ => lookup_fillBuffer_zeroFill,
    fun _ => lookup_fillBuffer_lengthField hlen, fun _ => lookup_fillBuffer_of_padLength_le⟩
  rw [exec_pad_of_fits hlen hcap, advance_commitBuffer]

/-- Settles O5: the four writes are one write of `pad` of the message, and below `2 ^ 61` its length fits the registers. -/
theorem padBufferIsThePaddedMessage : Obligations.PadBufferIsThePaddedMessage := by
  intro s m hlen hcap hlength hm
  obtain rfl := eq_messageBytes hlength hm
  have hmul := padLength_eq_mul s.len.toNat
  have hmax := padLength_le s.len.toNat
  refine ⟨_, exec_pad_of_fits hlen hcap, ?_, ?_, fun i hi => ?_, by simp [pad]⟩
  · rw [length_pad, messageBytes_length, advance_plen, commitBuffer_plen, BitVec.toNat_ofNat,
      Nat.mod_eq_of_lt (by omega)]
  · rw [length_pad, messageBytes_length, advance_nblk, commitBuffer_nblk, BitVec.toNat_ofNat,
      Nat.mod_eq_of_lt (by omega)]
    omega
  · rw [advance_pb, commitBuffer_pb, lookup_fillBuffer_eq_getElem?_pad (by simpa using hi)]

end Sys2Proof.Machine

/-! ### The function `expand` (42_scheduler.md R130) -/

namespace Sys2Proof.Machine

variable {w : List Word} {b : List Byte}

@[simp] theorem length_expandFrom (n : Nat) (w : List Word) : (expandFrom n w).length = w.length + n := by
  induction n generalizing w with
  | zero => rfl
  | succ n ih => rw [expandFrom, ih, List.length_append, List.length_singleton, Nat.add_assoc, Nat.add_comm 1]

/-- A derived word is appended, so the words before it stay. -/
theorem prefix_expandFrom (n : Nat) (w : List Word) : w <+: expandFrom n w := by
  induction n generalizing w with
  | zero => exact List.prefix_rfl
  | succ n ih => exact (List.prefix_append w [nextWord w]).trans (ih _)

/-- Every word that `expandFrom` appends is derived from all the words before it. -/
theorem getElem?_expandFrom {n t : Nat} (hle : w.length ≤ t) (hlt : t < w.length + n) :
    (expandFrom n w)[t]? = some (nextWord ((expandFrom n w).take t)) := by
  induction n generalizing w with
  | zero => omega
  | succ n ih =>
    have hpre : w ++ [nextWord w] <+: expandFrom (n + 1) w := prefix_expandFrom n _
    obtain rfl | hgt := Nat.eq_or_lt_of_le hle
    · rw [← List.prefix_iff_eq_take.mp ((List.prefix_append _ _).trans hpre)]
      exact (List.prefix_iff_getElem?.mp hpre _ (by simp)).trans (by simp)
    · exact ih (by simpa using hgt) (by simp; omega)

/-- The recurrence of R130 reads the last words of the list only. -/
theorem nextWord_take {t : Nat} (hle : 16 ≤ t) (hlt : t ≤ w.length) :
    nextWord (w.take t) = smallSigma1 (w.getD (t - 2) 0) + w.getD (t - 7) 0 + smallSigma0 (w.getD (t - 15) 0)
      + w.getD (t - 16) 0 := by
  have hread {m : Nat} (hm : 0 < m) : (w.take t).getD (t - m) 0 = w.getD (t - m) 0 := by
    rw [List.getD_eq_getElem?_getD, List.getElem?_take_of_lt (by omega), List.getD_eq_getElem?_getD]
  rw [nextWord, List.length_take_of_le hlt, hread (by omega), hread (by omega), hread (by omega), hread (by omega)]

@[simp] theorem length_expand (b : List Byte) : (expand b).length = 64 := by
  simp [expand]

theorem getElem?_expand_block {t : Nat} (h : t < 16) : (expand b)[t]? = some (blockWord b t) := by
  rw [expand, List.prefix_iff_getElem?.mp (prefix_expandFrom 48 _) t (by simpa using h)]
  simp

theorem getElem?_expand_derived {t : Nat} (hle : 16 ≤ t) (hlt : t < 64) :
    (expand b)[t]? = some (smallSigma1 ((expand b).getD (t - 2) 0) + (expand b).getD (t - 7) 0
      + smallSigma0 ((expand b).getD (t - 15) 0) + (expand b).getD (t - 16) 0) := by
  rw [← nextWord_take hle (by rw [length_expand]; omega)]
  exact getElem?_expandFrom (by simpa using hle) (by simpa using hlt)

/-- A block word is the big-endian word of the four bytes at its place. -/
theorem blockWord_eq_be32 {t : Nat} {b0 b1 b2 b3 : Byte} (h0 : b[4 * t]? = some b0) (h1 : b[4 * t + 1]? = some b1)
    (h2 : b[4 * t + 2]? = some b2) (h3 : b[4 * t + 3]? = some b3) : blockWord b t = be32 b0 b1 b2 b3 := by
  simp only [blockWord, List.getD_eq_getElem?_getD, h0, h1, h2, h3, Option.getD_some]

/-- Settles O35: `expand` starts from the 16 words of the block, and every later word is derived from those before it. -/
theorem expandObeysTheRecurrence : Obligations.ExpandObeysTheRecurrence := by
  refine fun b _ => ⟨length_expand b, fun t b0 b1 b2 b3 ht h0 h1 h2 h3 => ?_,
    fun t w w2 w7 w15 w16 hle hlt hw h2 h7 h15 h16 => ?_⟩
  · rw [getElem?_expand_block ht, blockWord_eq_be32 h0 h1 h2 h3]
  · simpa [getElem?_expand_derived hle hlt, h2, h7, h15, h16] using hw.symm

end Sys2Proof.Machine

/-! ### The Message Scheduler: `WLD` and `WEX` -/

namespace Sys2Proof.Machine

variable {s : State} {t : BitVec 6}

theorem encode_wld (t : BitVec 6) : encode (.wld t) = 0x400#12 + t.setWidth 12 := by
  simp [encode, microWord, BitVec.ofNat_add]

theorem encode_wex (t : BitVec 6) : encode (.wex t) = 0x500#12 + t.setWidth 12 := by
  simp [encode, microWord, BitVec.ofNat_add]

/-- Four bytes of `PB` that hold values are read as their big-endian word (20_memory.md R53). -/
theorem pbWord_of_lookup {a : Nat} {b0 b1 b2 b3 : Byte} (h0 : Memory.lookup s.pb a = some b0)
    (h1 : Memory.lookup s.pb (a + 1) = some b1) (h2 : Memory.lookup s.pb (a + 2) = some b2)
    (h3 : Memory.lookup s.pb (a + 3) = some b3) : pbWord s a = be32 b0 b1 b2 b3 := by
  rw [pbWord, pbByte_of_lookup h0, pbByte_of_lookup h1, pbByte_of_lookup h2, pbByte_of_lookup h3]

theorem indexBack_eq {i : Fin 64} {k : Nat} (h : i.val + k = t.toNat) : indexBack t k = i :=
  Fin.ext (Nat.sub_eq_of_eq_add h.symm)

/-- Settles O6: the word is that of `WLD t`, and inside the memory `WLD` completes with the word of the four bytes. -/
theorem wldLoadsAScheduleWord : Obligations.WldLoadsAScheduleWord := by
  refine ⟨fun t ht => ?_, fun s t b0 b1 b2 b3 ht hin h0 h1 h2 h3 => ?_⟩
  · exact (romWord_and_decode_of_slot (i := .wld t) (decide_eq_true ht) (Nat.add_comm 3 _) (encode_wld t)).symm
  · rw [exec_wld, execWld_eq ht hin, wldOffset, pbWord_of_lookup h0 h1 h2 h3]
    rfl

/-- Settles O8: the word is that of `WEX t`, and the four source words are those at the indices back from `t`. -/
theorem wexDerivesAScheduleWord : Obligations.WexDerivesAScheduleWord := by
  refine ⟨fun t ht => ?_, fun s t i2 i7 i15 i16 h2 h7 h15 h16 => ?_⟩
  · exact (romWord_and_decode_of_slot (i := .wex t) (decide_eq_true ht) (Nat.add_comm 3 _) (encode_wex t)).symm
  · rw [exec_wex, execWex_eq (by omega), wexWord, indexBack_eq h2, indexBack_eq h7, indexBack_eq h15, indexBack_eq h16]
    rfl

end Sys2Proof.Machine

/-! ### Running for a number of steps -/

namespace Sys2Proof.Machine

variable {s t u : State} {m n : Nat}

theorem runFor_add (h : runFor m s = .next t) (n : Nat) : runFor (m + n) s = runFor n t := by
  induction m generalizing s with
  | zero =>
    injection h with h
    rw [h, Nat.zero_add]
  | succ m ih =>
    rw [Nat.succ_add]
    rw [runFor] at h ⊢
    cases hstep : step s with
    | next r =>
      rw [hstep] at h
      exact ih h
    | fault r | refused r => simp [hstep] at h

/-- A run is extended by one step at its end. -/
theorem runFor_succ (h : runFor n s = .next t) (hstep : step t = .next u) : runFor (n + 1) s = .next u := by
  rw [runFor_add h]
  simp only [runFor, hstep]

/-- The step that follows `n` others reads no reset when none is among the next `m` samples. -/
theorem State.noReset.portSample_rst (h : s.noReset m) (hn : n < m) (ht : t.inputs = s.inputs.drop n) :
    (portSample t).rst = false := by
  refine (portSample_rst_eq_false_iff t).mpr fun p hp => h p ?_
  rw [ht, List.head?_drop] at hp
  exact List.mem_of_getElem? ((List.getElem?_take_of_lt hn).trans hp)

end Sys2Proof.Machine

/-! ### `EXPAND`: slots 3 to 66 fill the schedule -/

namespace Sys2Proof.Machine

/-- The current block lies in the memory behind `PB` and holds the 64 bytes `b`. -/
structure State.HoldsBlock (s : State) (b : List Byte) : Prop where
  length : b.length = 64
  inside : 64 * s.blk.toNat + 63 < s.pbCap
  bytes : ∀ i, i < 64 → Memory.lookup s.pb (64 * s.blk.toNat + i) = b[i]?

/-- `s` at slot `n + 3` with the schedule `x`, `n` samples of the ports having been read: what `n` micro-operations
of `EXPAND` leave of a state at slot 3. -/
def State.scheduled (s : State) (n : Nat) (x : Vector Word 64) : State :=
  { s with w := x, upc := BitVec.ofNat 8 (3 + n), inputs := s.inputs.drop n }

/-- The words of `x` below `n` are those of `expand(b)`. -/
def ScheduledUpTo (b : List Byte) (n : Nat) (x : Vector Word 64) : Prop :=
  ∀ j, j < n → (expand b)[j]? = x[j]?

variable {s : State} {b : List Byte} {n : Nat} {x : Vector Word 64}

theorem scheduled_zero (hupc : s.upc = 3) : s.scheduled 0 s.w = s := by
  cases s
  subst hupc
  rfl

/-- Writing word `t` and advancing, in the slot of `WLD t` or `WEX t`. -/
theorem advance_writeW_scheduled (t : BitVec 6) (v : Word) :
    advance (writeW (index t) v (takeSample (s.scheduled t.toNat x))) =
      s.scheduled (t.toNat + 1) (x.set t.toNat v t.isLt) := by
  have hupc : BitVec.ofNat 8 (3 + t.toNat) + 1#8 = BitVec.ofNat 8 (3 + (t.toNat + 1)) := (BitVec.ofNat_add _ 1).symm
  simp [advance, writeW, takeSample, State.scheduled, index, hupc]

theorem ScheduledUpTo.set (h : ScheduledUpTo b n x) (hn : n < 64) {v : Word} (hv : (expand b)[n]? = some v) :
    ScheduledUpTo b (n + 1) (x.set n v hn) := by
  intro j hj
  obtain rfl | hlt := Nat.eq_or_lt_of_le (Nat.le_of_lt_succ hj)
  · simp [hv]
  · rw [h j hlt, Vector.getElem?_set_ne hn (Nat.ne_of_gt hlt)]

theorem ScheduledUpTo.toList_eq (h : ScheduledUpTo b 64 x) : x.toList = expand b := by
  refine List.ext_getElem? fun i => ?_
  by_cases hi : i < 64
  · rw [h i hi, Vector.getElem?_toList]
  · simp [hi]

/-- `WLD t` reads word `t` of the current block (42_scheduler.md R131). -/
theorem State.HoldsBlock.pbWord_eq (h : s.HoldsBlock b) {t : BitVec 6} (ht : t.toNat ≤ 15) :
    pbWord s (wldOffset s.blk t) = blockWord b t.toNat := by
  have hbyte (i : Nat) (hi : i < 64) : b[i]? = some (b[i]'(h.length ▸ hi)) := List.getElem?_eq_getElem _
  have hlookup (i : Nat) (hi : i < 64) := (h.bytes i hi).trans (hbyte i hi)
  rw [blockWord_eq_be32 (hbyte _ (by omega)) (hbyte _ (by omega)) (hbyte _ (by omega)) (hbyte _ (by omega))]
  exact pbWord_of_lookup (hlookup (4 * t.toNat) (by omega)) (hlookup (4 * t.toNat + 1) (by omega))
    (hlookup (4 * t.toNat + 2) (by omega)) (hlookup (4 * t.toNat + 3) (by omega))

theorem State.HoldsBlock.wldOffset_lt_pbCap (h : s.HoldsBlock b) {t : BitVec 6} (ht : t.toNat ≤ 15) :
    wldOffset s.blk t + 3 < s.pbCap := by
  have hinside := h.inside
  rw [wldOffset]
  omega

/-- `WEX t` derives word `t` of `expand(b)` once the words below it are there (42_scheduler.md R132). -/
theorem ScheduledUpTo.wexWord_eq {t : BitVec 6} (h : ScheduledUpTo b t.toNat s.w) (ht : 16 ≤ t.toNat) :
    (expand b)[t.toNat]? = some (wexWord t s) := by
  have hread {k : Nat} (hk : 0 < k) : (expand b).getD (t.toNat - k) 0 = readW s (indexBack t k) := by
    rw [List.getD_eq_getElem?_getD, h _ (by omega), Vector.getElem?_eq_getElem (by omega)]
    rfl
  rw [getElem?_expand_derived ht t.isLt, hread (by omega), hread (by omega), hread (by omega), hread (by omega),
    wexWord]

/-- One micro-operation of `EXPAND`, `WLD` below word 16 and `WEX` from there on, writes the next word of `expand(b)`. -/
theorem exists_step_scheduled (hbusy : s.busy = true) (hreset : s.noReset 64) (hblock : s.HoldsBlock b) (hn : n < 64)
    (hx : ScheduledUpTo b n x) :
    ∃ y, ScheduledUpTo b (n + 1) y ∧ step (s.scheduled n x) = .next (s.scheduled (n + 1) y) := by
  obtain ⟨t, rfl⟩ : ∃ t : BitVec 6, t.toNat = n := ⟨BitVec.ofNat 6 n, Nat.mod_eq_of_lt hn⟩
  have hrst : (portSample (s.scheduled t.toNat x)).rst = false := hreset.portSample_rst hn rfl
  have hslot : 3 + t.toNat = (s.scheduled t.toNat x).upc.toNat := by simp [State.scheduled]; omega
  by_cases ht : t.toNat ≤ 15
  · have hblock : (takeSample (s.scheduled t.toNat x)).HoldsBlock b := { hblock with }
    refine ⟨_, hx.set hn (getElem?_expand_block (by omega)), ?_⟩
    rw [step_eq_exec (i := .wld t) hrst hbusy (decide_eq_true ht) hslot, exec_wld,
      execWld_eq ht (hblock.wldOffset_lt_pbCap ht), hblock.pbWord_eq ht, advance_writeW_scheduled]
  · have ht' : 16 ≤ t.toNat := Nat.lt_of_not_le ht
    refine ⟨_, hx.set hn (hx.wexWord_eq (s := takeSample (s.scheduled t.toNat x)) ht'), ?_⟩
    rw [step_eq_exec (i := .wex t) hrst hbusy (decide_eq_true ht') hslot, exec_wex, execWex_eq ht',
      advance_writeW_scheduled]

/-- The invariant of `EXPAND`: `n` steps leave the first `n` words of `expand(b)` in the schedule. -/
theorem exists_runFor_scheduled (hbusy : s.busy = true) (hupc : s.upc = 3) (hreset : s.noReset 64)
    (hblock : s.HoldsBlock b) (hn : n ≤ 64) :
    ∃ x, ScheduledUpTo b n x ∧ runFor n s = .next (s.scheduled n x) := by
  induction n with
  | zero => exact ⟨s.w, nofun, by rw [scheduled_zero hupc, runFor]⟩
  | succ n ih =>
    obtain ⟨x, hx, hrun⟩ := ih (by omega)
    obtain ⟨y, hy, hstep⟩ := exists_step_scheduled hbusy hreset hblock (by omega) hx
    exact ⟨y, hy, runFor_succ hrun hstep⟩

/-- Settles O45: the invariant of `EXPAND` after its 64 steps. -/
theorem expandMacroFillsTheSchedule : Obligations.ExpandMacroFillsTheSchedule := by
  intro s b hbusy hupc hreset hlength hinside hbytes
  obtain ⟨x, hx, hrun⟩ := exists_runFor_scheduled hbusy hupc hreset ⟨hlength, hinside, hbytes⟩ (Nat.le_refl 64)
  exact ⟨x, hx.toList_eq, hrun⟩

end Sys2Proof.Machine

/-! ### The Compressor: `VLD`, `RND` and `HADD` -/

namespace Sys2Proof.Machine

variable {s : State} {x y z : Vector Word 8}

theorem encode_rnd (t : BitVec 6) : encode (.rnd t) = 0x700#12 + t.setWidth 12 := by
  simp [encode, microWord, BitVec.ofNat_add]

theorem getElem_addWords (x y : Vector Word 8) (i : Fin 8) : (addWords x y)[i] = x[i] + y[i] := by
  fin_cases i <;> rfl

/-- The eight sums fix the vector (43_compressor.md R143). -/
theorem eq_addWords (h : ∀ i : Fin 8, z[i] = x[i] + y[i]) : z = addWords x y :=
  Vector.ext fun i hi => (h ⟨i, hi⟩).trans (getElem_addWords x y ⟨i, hi⟩).symm

/-- `HADD` before the last block: the block loop is taken (44_engine.md R168). -/
theorem exec_hadd_of_lt (h : s.blk.toNat + 1 < s.nblk.toNat) :
    exec .hadd s = .next { s with h := addWords s.h s.v, blk := s.blk + 1, upc := 3 } :=
  exec_eq_next_iff.mpr (.haddLoop h)

/-- `HADD` at the last block: the block loop is left (44_engine.md R168). -/
theorem exec_hadd_of_not_lt (h : ¬ s.blk.toNat + 1 < s.nblk.toNat) :
    exec .hadd s = .next { s with h := addWords s.h s.v, upc := 133 } :=
  exec_eq_next_iff.mpr (.haddExit (Nat.not_lt.mp h))

/-- Settles O10: the word is that of `VLD`, and its meaning copies `H` and advances. -/
theorem vldLoadsTheWorkingRegisters : Obligations.VldLoadsTheWorkingRegisters :=
  ⟨decode_encode (i := .vld) rfl, romWord_romSlot (i := .vld) rfl, fun _ => exec_eq_next_iff.mpr .vld⟩

/-- Settles O11: the word is that of `RND t`, and `round` on eight named registers is the eight assignments. -/
theorem rndIsOneRound : Obligations.RndIsOneRound := by
  refine ⟨fun t => ?_, fun s t a b c d e f g h t1 t2 hv ht1 ht2 => ?_⟩
  · exact (romWord_and_decode_of_slot (i := .rnd t) rfl (Nat.add_comm 68 _) (encode_rnd t)).symm
  · subst ht1 ht2
    rw [exec_rnd, hv]
    rfl

/-- Settles O12: the word is that of `HADD`, the sums are those of `addWords`, and the comparison chooses the branch. -/
theorem haddAddsAndLoops : Obligations.HaddAddsAndLoops := by
  refine ⟨decode_encode (i := .hadd) rfl, romWord_romSlot (i := .hadd) rfl, fun s x hx => ?_⟩
  obtain rfl := eq_addWords hx
  exact ⟨exec_hadd_of_lt, exec_hadd_of_not_lt⟩

end Sys2Proof.Machine

/-! ### `COMPRESS`: slots 67 to 132 fold the schedule into the hash state -/

namespace Sys2Proof.Machine

variable {s : State} {n : Nat}

/-- What `VLD` and `n` rounds leave of a state at slot 67, with `n + 1` samples of the ports read: the hash state after
`n` rounds in `V`. -/
def State.rounded (s : State) (n : Nat) : State :=
  { s with v := rounds s.w.toList s.h n, upc := BitVec.ofNat 8 (68 + n), inputs := s.inputs.drop (n + 1) }

theorem getD_toList_index (x : Vector Word 64) (t : BitVec 6) : x.toList.getD t.toNat 0 = x[index t] := by
  rw [List.getD_eq_getElem?_getD, Vector.getElem?_toList, Vector.getElem?_eq_getElem t.isLt]
  rfl

/-- Round `t` of the function `compress` is what `RND t` computes (43_compressor.md R140, R142). -/
theorem rounds_succ (x : Vector Word 64) (v : Vector Word 8) (t : BitVec 6) :
    rounds x.toList v (t.toNat + 1) = round (rounds x.toList v t.toNat) kTable[index t] x[index t] := by
  rw [rounds, getD_toList_index, getD_toList_index]

theorem step_vld_rounded (hbusy : s.busy = true) (hupc : s.upc = 67) (hreset : s.noReset 66) :
    step s = .next (s.rounded 0) := by
  have hslot : romSlot .vld = s.upc.toNat := by rw [hupc]; rfl
  rw [step_eq_exec (hreset.portSample_rst (by omega) List.drop_zero.symm) hbusy rfl hslot, exec_vld]
  simp [advance, writeV, takeSample, State.rounded, rounds, hupc]

theorem step_rnd_rounded (hbusy : s.busy = true) (hreset : s.noReset 66) (hn : n < 64) :
    step (s.rounded n) = .next (s.rounded (n + 1)) := by
  obtain ⟨t, rfl⟩ : ∃ t : BitVec 6, t.toNat = n := ⟨BitVec.ofNat 6 n, Nat.mod_eq_of_lt hn⟩
  have hrst : (portSample (s.rounded t.toNat)).rst = false := hreset.portSample_rst (by omega) rfl
  have hslot : romSlot (.rnd t) = (s.rounded t.toNat).upc.toNat := by simp [State.rounded, romSlot]; omega
  have hupc : BitVec.ofNat 8 (68 + t.toNat) + 1#8 = BitVec.ofNat 8 (68 + (t.toNat + 1)) := (BitVec.ofNat_add _ 1).symm
  rw [step_eq_exec hrst hbusy rfl hslot, exec_rnd]
  simp [advance, writeV, takeSample, readW, State.rounded, rounds_succ, hupc]

/-- The invariant of `COMPRESS`: `n` steps after `VLD` leave the hash state after `n` rounds in `V`. -/
theorem runFor_rounded (hbusy : s.busy = true) (hupc : s.upc = 67) (hreset : s.noReset 66) (hn : n ≤ 64) :
    runFor (n + 1) s = .next (s.rounded n) := by
  induction n with
  | zero => exact runFor_succ rfl (step_vld_rounded hbusy hupc hreset)
  | succ n ih => exact runFor_succ (ih (by omega)) (step_rnd_rounded hbusy hreset (by omega))

/-- The last step of `COMPRESS` is `HADD` on the hash state after all 64 rounds. -/
theorem step_hadd_rounded (hbusy : s.busy = true) (hreset : s.noReset 66) :
    step (s.rounded 64) = exec .hadd (takeSample (s.rounded 64)) :=
  step_eq_exec (hreset.portSample_rst (by omega) rfl) hbusy rfl rfl

/-- Settles O46: the invariant of `COMPRESS` after the 64 rounds, then `HADD` in each branch of the block loop. -/
theorem compressMacroFoldsABlock : Obligations.CompressMacroFoldsABlock := by
  intro s hbusy hupc hreset
  have hrun := runFor_rounded hbusy hupc hreset (Nat.le_refl 64)
  have hstep := step_hadd_rounded hbusy hreset
  refine ⟨rounds s.w.toList s.h 64, fun hlt => ?_, fun hge => ?_⟩
  · rw [runFor_succ hrun (hstep.trans (exec_hadd_of_lt hlt))]
    simp [takeSample, State.rounded, compress]
  · rw [runFor_succ hrun (hstep.trans (exec_hadd_of_not_lt hge))]
    simp [takeSample, State.rounded, compress]

end Sys2Proof.Machine

/-! ### Every step reads one sample of the ports -/

namespace Sys2Proof.Machine

variable {s t u : State} {m n : Nat}

/-- A run of one step more is a step and then the run. -/
theorem runFor_succ_eq_next_iff : runFor (n + 1) s = .next t ↔ ∃ r, step s = .next r ∧ runFor n r = .next t := by
  rw [runFor]
  cases hstep : step s <;> simp

theorem inputs_of_step (h : step s = .next t) : t.inputs = s.inputs.tail := by
  obtain ⟨-, rfl⟩ | ⟨-, i, -, hi⟩ | ⟨-, rfl⟩ | ⟨-, rfl⟩ := step_performs h
  · rfl
  · obtain ⟨-, -, -, -, hinputs⟩ := performs_host hi
    exact hinputs
  · rfl
  · rfl

theorem inputs_of_runFor (h : runFor n s = .next t) : t.inputs = s.inputs.drop n := by
  induction n generalizing s with
  | zero =>
    injection h with h
    rw [h, List.drop_zero]
  | succ n ih =>
    obtain ⟨r, hstep, hrun⟩ := runFor_succ_eq_next_iff.mp h
    rw [ih hrun, inputs_of_step hstep, List.drop_tail]

/-- An accepted `START` by the next sample of the ports (44_engine.md R161). -/
theorem step_eq_acceptStart_of_cons {p : PortIn} {ps : List PortIn} (hin : s.inputs = p :: ps) (hrst : p.rst = false)
    (hstart : p.start = true) (hidle : s.busy = false) : step s = .next (acceptStart p (takeSample s)) := by
  obtain rfl := portSample_cons hin
  exact step_eq_acceptStart hrst hidle hstart

theorem runFor_trans (h : runFor m s = .next t) (h' : runFor n t = .next u) : runFor (m + n) s = .next u :=
  (runFor_add h n).trans h'

theorem State.noReset.mono (h : s.noReset m) (hle : n ≤ m) : s.noReset n :=
  fun p hp => h p (List.take_subset_take_left _ hle hp)

/-- Where a run of `m` steps leads, none of the next `n` samples is a reset. -/
theorem State.noReset.of_runFor (h : s.noReset (m + n)) (hrun : runFor m s = .next t) : t.noReset n := by
  intro p hp
  rw [inputs_of_runFor hrun, List.take_drop] at hp
  exact h p (List.mem_of_mem_drop hp)

theorem noReset_succ_of_cons {p : PortIn} {ps : List PortIn} (hin : s.inputs = p :: ps) (hrst : p.rst = false)
    (hps : ∀ q ∈ ps.take n, q.rst = false) : s.noReset (n + 1) := by
  intro q hq
  rw [hin, List.take_succ_cons] at hq
  obtain rfl | hq := List.mem_cons.mp hq
  · exact hrst
  · exact hps q hq

/-- A run without a reset goes on with the micro-operation that has the slot `UPC` (44_engine.md R166). -/
theorem runFor_succ_of_performs {i : Instr} (hreset : s.noReset (n + 1)) (hrun : runFor n s = .next t)
    (hbusy : t.busy = true) (hwf : i.wf = true) (hslot : romSlot i = t.upc.toNat) (h : Performs (takeSample t) i u) :
    runFor (n + 1) s = .next u :=
  have hrst := hreset.portSample_rst (Nat.lt_succ_self n) (inputs_of_runFor hrun)
  runFor_succ hrun ((step_eq_exec hrst hbusy hwf hslot).trans (exec_eq_next_iff.mpr h))

end Sys2Proof.Machine

/-! ### Two runs side by side: an accepted `START` leaves nothing of an earlier run to be read -/

namespace Sys2Proof.Machine

variable {s t s' : State}

/-- After an accepted `START` two idle cores agree: neither has a buffer, `START` sets the rest of what a run reads, and the
run has not written `H`, `V` and `W` yet (44_engine.md R161, R172). -/
theorem agree_acceptStart_of_idle (hs : s.Inv) (ht : t.Inv) (hsidle : s.busy = false) (htidle : t.busy = false)
    (hcap : s.capExtra = t.capExtra) (hinputs : s.inputs = t.inputs) (p : PortIn) :
    (acceptStart p s).Agree (acceptStart p t) := by
  obtain ⟨-, hspbv⟩ := hs.idle hsidle
  obtain ⟨-, htpbv⟩ := ht.idle htidle
  obtain ⟨hsplen, hsnblk, hspb⟩ := hs.released hspbv
  obtain ⟨htplen, htnblk, htpb⟩ := ht.released htpbv
  exact
    { pb := by simp [hspb, htpb]
      plen := by simp [hsplen, htplen]
      nblk := by simp [hsnblk, htnblk]
      pbv := by simp [hspbv, htpbv]
      digest := rfl, len := rfl, mv := rfl, blk := rfl, upc := rfl, busy := rfl, done := rfl, dvalid := rfl, err := rfl
      msg := rfl, capExtra := by simpa using hcap, inputs := by simpa using hinputs
      h := fun _ hle => absurd hle (Nat.not_succ_le_zero _)
      v := fun _ hle => absurd hle (Nat.not_succ_le_zero _)
      w := fun _ _ _ hlt => absurd hlt (Nat.not_lt_zero _) }

/-- Two states that agree run to two states that agree, for any number of steps. -/
theorem agree_runFor {n : Nat} (hinv : s.Inv) (h : s.Agree t) (hrun : runFor n s = .next s') :
    ∃ t', runFor n t = .next t' ∧ s'.Agree t' := by
  induction n generalizing s t with
  | zero =>
    injection hrun with hrun
    exact ⟨t, rfl, hrun ▸ h⟩
  | succ n ih =>
    obtain ⟨r, hstep, hrun⟩ := runFor_succ_eq_next_iff.mp hrun
    obtain ⟨q, hq, hagree⟩ := unwrittenRegistersAreNeverRead s t r hinv h hstep
    obtain ⟨t', ht', hagree⟩ := ih (everyStepKeepsTheInvariant s r hinv hstep) hagree hrun
    exact ⟨t', runFor_succ_eq_next_iff.mpr ⟨q, hq, ht'⟩, hagree⟩

/-- The output ports show what two states that agree have in common (10_state.md R35). -/
theorem State.Agree.ports_eq (h : s.Agree t) : portBusy s = portBusy t ∧ portDone s = portDone t ∧
    portErr s = portErr t ∧ portDigestValid s = portDigestValid t ∧ portDigest s = portDigest t :=
  ⟨h.busy, h.done, h.err, h.dvalid, by rw [portDigest, portDigest, h.dvalid, h.digest]⟩

/-- Settles O44: the accepted `START` makes the two states agree, and the steps after it keep that. -/
theorem runsDoNotLeakIntoEachOther : Obligations.RunsDoNotLeakIntoEachOther := by
  intro s t p ps n s' hs ht hsidle htidle hcap hsin htin hstart hrst hrun
  have hinputs : s.inputs = t.inputs := hsin.trans htin.symm
  obtain ⟨r, hr, hrun⟩ := runFor_succ_eq_next_iff.mp hrun
  have hsstep := step_eq_acceptStart_of_cons hsin hrst hstart hsidle
  have htstep := step_eq_acceptStart_of_cons htin hrst hstart htidle
  obtain rfl : acceptStart p (takeSample s) = r := by simpa [hsstep] using hr
  have hagree := agree_acceptStart_of_idle (inv_takeSample hs) (inv_takeSample ht) hsidle htidle hcap
    (congrArg List.tail hinputs) p
  obtain ⟨t', ht', hagree⟩ := agree_runFor (everyStepKeepsTheInvariant _ _ hs hsstep) hagree hrun
  exact ⟨t', runFor_succ_eq_next_iff.mpr ⟨_, htstep, ht'⟩, hagree.ports_eq⟩

end Sys2Proof.Machine

/-! ### The block loop: 130 micro-operations hash one block -/

namespace Sys2Proof.Machine

variable {s : State} {P : List Byte} {k : Nat}

/-- A run whose buffer holds the padded message `P` has hashed the first `k` blocks: it is at the first slot of the body
for block `k`, or, when there is no such block, at the slot of `SER`. -/
structure State.Hashed (s : State) (P : List Byte) (k : Nat) : Prop where
  busy : s.busy = true
  err : s.err = 0
  hash : s.h = hashBlocks P k
  length : P.length = 64 * s.nblk.toNat
  inside : P.length ≤ s.pbCap
  bytes : ∀ a, a < P.length → Memory.lookup s.pb a = P[a]?
  next : k < s.nblk.toNat → s.upc = slotBlock ∧ s.blk.toNat = k
  last : k = s.nblk.toNat → s.upc = slotSer

/-- The current block in the buffer is block `k` of the padded message (20_memory.md R60). -/
theorem State.Hashed.holdsBlock (h : s.Hashed P k) (hk : k < s.nblk.toNat) : s.HoldsBlock (block P k) := by
  have hlength := h.length
  have hinside := h.inside
  obtain ⟨-, hblk⟩ := h.next hk
  refine ⟨by simp [block]; omega, by omega, fun i hi => ?_⟩
  rw [hblk, h.bytes _ (by omega), block, List.getElem?_take_of_lt hi, List.getElem?_drop]

/-- One turn of the block loop: `EXPAND`, then `COMPRESS` (44_engine.md R168). -/
theorem State.Hashed.exists_runFor_block (h : s.Hashed P k) (hk : k < s.nblk.toNat) (hreset : s.noReset 130) :
    ∃ t, runFor 130 s = .next t ∧ t.Hashed P (k + 1) := by
  obtain ⟨hupc, hblk⟩ := h.next hk
  obtain ⟨hlength, hinside, hbytes⟩ := h.holdsBlock hk
  obtain ⟨x, hx, hexpand⟩ := expandMacroFillsTheSchedule s (block P k) h.busy hupc (hreset.mono (by omega))
    hlength hinside hbytes
  obtain ⟨y, hloop, hexit⟩ := compressMacroFoldsABlock
    { s with w := x, upc := 67, inputs := s.inputs.drop 64 } h.busy rfl (hreset.of_runFor hexpand)
  have hhash : compress s.h x.toList = hashBlocks P (k + 1) := by rw [h.hash, hx, hashBlocks]
  by_cases hlt : s.blk.toNat + 1 < s.nblk.toNat
  · exact ⟨_, runFor_trans hexpand (hloop hlt),
      { h with
        hash := hhash
        next := fun _ => ⟨rfl, by bv_omega⟩
        last := fun heq => absurd (hblk ▸ hlt) (heq ▸ Nat.lt_irrefl _) }⟩
  · exact ⟨_, runFor_trans hexpand (hexit hlt),
      { h with
        hash := hhash
        next := fun hlt' => absurd (hblk ▸ hlt') hlt
        last := fun _ => rfl }⟩

/-- The invariant of the block loop: `130 * k` steps hash the first `k` blocks. -/
theorem State.Hashed.exists_runFor_blocks (h : s.Hashed P 0) (hk : 64 * k ≤ P.length) (hreset : s.noReset (130 * k)) :
    ∃ t, runFor (130 * k) s = .next t ∧ t.Hashed P k := by
  induction k with
  | zero => exact ⟨s, rfl, h⟩
  | succ k ih =>
    obtain ⟨t, hrun, ht⟩ := ih (by omega) (hreset.mono (by omega))
    have hlength := ht.length
    obtain ⟨u, hrun', hu⟩ := ht.exists_runFor_block (by omega) (hreset.of_runFor hrun)
    exact ⟨u, runFor_trans hrun hrun', hu⟩

end Sys2Proof.Machine

/-! ### A whole run: `CHK`, `INIT` and `PAD` before the block loop, `SER` and `REL` after it -/

namespace Sys2Proof.Machine

variable {s : State} {p : PortIn} {ps : List PortIn} {P : List Byte}

/-- What an accepted `START` with the sample `p`, `CHK` and `INIT` leave of an idle core: the run at the slot of `PAD`. -/
def State.beforePad (s : State) (p : PortIn) : State :=
  { acceptStart p s with h := iv, upc := 2, inputs := s.inputs.drop 3 }

/-- A run with a message comes to `PAD` with the initial hash state (44_engine.md R161, R162, R163). -/
theorem runFor_beforePad (hin : s.inputs = p :: ps) (hidle : s.busy = false) (hstart : p.start = true)
    (hmv : p.msgValid = true) (hreset : s.noReset 3) : runFor 3 s = .next (s.beforePad p) := by
  have hrst : p.rst = false := hreset p (by simp [hin])
  have hrunStart := runFor_succ (n := 0) rfl (step_eq_acceptStart_of_cons hin hrst hstart hidle)
  have hrunChk := runFor_succ_of_performs (hreset.mono (by omega)) hrunStart rfl rfl rfl (.chk hmv)
  have hrunInit := runFor_succ_of_performs hreset hrunChk rfl rfl rfl .init
  have hdrop : s.inputs.drop 3 = s.inputs.tail.tail.tail := by simp only [← List.drop_tail, List.drop_zero]
  rw [hrunInit, State.beforePad, hdrop]
  rfl

theorem messageBytes_of_port {t : State} (hmsg : t.msg = p.msg) (hlen : t.len = p.len) :
    messageBytes t = p.message := by
  simp only [messageBytes, PortIn.message, msgAddrs, hlen]
  exact List.map_congr_left fun a _ => by rw [msgByte, hmsg]

theorem length_message (p : PortIn) : p.message.length = p.len.toNat := by
  simp [PortIn.message]

/-- `PAD` on a message that fits brings a run to its first block, whatever the buffer held before (41_padder.md R119). -/
theorem hashed_zero_of_pad (hbusy : s.busy = true) (herr : s.err = 0) (hupc : s.upc = 2) (hhash : s.h = iv)
    (hblk : s.blk = 0) (hlen : s.len.toNat < 2 ^ 61) (hcap : padLength s.len.toNat ≤ s.pbCap) :
    (advance (commitBuffer (fillBuffer s) (padLength s.len.toNat) s)).Hashed (pad (messageBytes s)) 0 := by
  have hmul := padLength_eq_mul s.len.toNat
  have hmax := padLength_le s.len.toNat
  have hlength : (pad (messageBytes s)).length = padLength s.len.toNat := by rw [length_pad, messageBytes_length]
  have hbytes {a : Nat} (ha : a < padLength s.len.toNat) := lookup_fillBuffer_eq_getElem?_pad ha
  -- The record below is compared field by field with `s`: the buffer must not be computed for that.
  generalize padLength s.len.toNat = n, fillBuffer s = m at *
  have hnblk : (BitVec.ofNat 64 (n / 64)).toNat = n / 64 := by
    rw [BitVec.toNat_ofNat, Nat.mod_eq_of_lt (by omega)]
  exact
    { busy := hbusy
      err := herr
      hash := hhash
      length := by rw [hlength, advance_nblk, commitBuffer_nblk, hnblk]; omega
      inside := hlength ▸ hcap
      bytes := fun a ha => hbytes (hlength ▸ ha)
      next := fun _ => by rw [advance_upc, commitBuffer_upc, hupc, advance_blk, commitBuffer_blk, hblk]; decide
      last := fun h0 => by rw [advance_nblk, commitBuffer_nblk, hnblk] at h0; omega }

/-- The first four steps of a run on a message that fits lead to its first block. -/
theorem exists_runFor_firstBlock (hin : s.inputs = p :: ps) (hidle : s.busy = false) (hstart : p.start = true)
    (hmv : p.msgValid = true) (hreset : s.noReset 4) (hlen : p.len.toNat < 2 ^ 61)
    (hcap : padLength p.len.toNat ≤ s.pbCap) : ∃ t, runFor 4 s = .next t ∧ t.Hashed (pad p.message) 0 := by
  have hrun := runFor_beforePad hin hidle hstart hmv (hreset.mono (by omega))
  have hrunPad := runFor_succ_of_performs hreset hrun rfl rfl rfl (.pad (padError_eq_none_iff.mpr ⟨hlen, hcap⟩))
  refine ⟨_, hrunPad, ?_⟩
  rw [← messageBytes_of_port (t := takeSample (s.beforePad p)) rfl rfl]
  exact hashed_zero_of_pad rfl rfl rfl rfl rfl hlen hcap

/-- After the last block `SER` and `REL` end the run with the digest (44_engine.md R164, R165). -/
theorem State.Hashed.exists_runFor_end (h : s.Hashed P (P.length / 64)) (hreset : s.noReset 2) :
    ∃ t, runFor 2 s = .next t ∧ t.busy = false ∧ t.done = true ∧ t.dvalid = true ∧ t.err = 0 ∧ t.upc = 0 ∧
      t.pbv = false ∧ t.digest = some (bytesOfWords (hashBlocks P (P.length / 64))) := by
  have hupc := h.last (by rw [h.length, Nat.mul_div_cancel_left _ (by omega)])
  have hrunSer := runFor_succ_of_performs (n := 0) (hreset.mono (by omega)) rfl h.busy rfl (hupc ▸ rfl) .ser
  have hrunRel := runFor_succ_of_performs hreset hrunSer h.busy rfl (by simp [hupc, romSlot, slotSer]) .rel
  exact ⟨_, hrunRel, by simp [h.err, h.hash]⟩

/-- Settles O47: `START`, `CHK`, `INIT` and `PAD` lead to the first block, the loop hashes them all, `SER` and `REL` end. -/
theorem runComputesTheDigest : Obligations.RunComputesTheDigest := by
  intro s p ps hin hrst hstart hmv hidle hlen hcap hps
  have hreset := noReset_succ_of_cons hin hrst hps
  have hlength : (pad p.message).length = 64 * ((p.len.toNat + 8) / 64 + 1) := by
    rw [length_pad, length_message, padLength_eq_mul]
  obtain ⟨t, hfirst, ht⟩ := exists_runFor_firstBlock hin hidle hstart hmv (hreset.mono (by omega)) hlen hcap
  generalize (p.len.toNat + 8) / 64 + 1 = n at hreset hlength ⊢
  have hsteps : 1 + (5 + 130 * n) = 4 + (130 * n + 2) := by omega
  have hreset' : t.noReset (130 * n + 2) := (hreset.mono (by omega)).of_runFor hfirst
  obtain ⟨u, hblocks, hu⟩ := ht.exists_runFor_blocks (k := n) (by omega) (hreset'.mono (by omega))
  obtain ⟨v, hend, hv⟩ :=
    State.Hashed.exists_runFor_end (by rwa [hlength, Nat.mul_div_cancel_left _ (by omega)]) (hreset'.of_runFor hblocks)
  exact ⟨v, by rw [hsteps]; exact runFor_trans hfirst (runFor_trans hblocks hend), hv⟩

end Sys2Proof.Machine

/-! ### The idle core, and how a run begins and ends -/

namespace Sys2Proof.Machine

variable {s t : State}

/-- While `BUSY = 1`, without a reset, the step is that of the sequencer, whatever else the ports show (44_engine.md R174). -/
theorem step_eq_sequencerStep (hrst : (portSample s).rst = false) (hbusy : s.busy = true) :
    step s = sequencerStep (takeSample s) := by
  simp [step, stepWith, hrst, hbusy]

/-- With neither reset nor start among the next samples, the next one, if any, is neither. -/
theorem portSample_quiet {n : Nat} (h : ∀ p ∈ s.inputs.take (n + 1), p.rst = false ∧ p.start = false) :
    (portSample s).rst = false ∧ (portSample s).start = false := by
  cases hin : s.inputs with
  | nil => rw [portSample_nil hin]; exact ⟨rfl, rfl⟩
  | cons p ps => rw [portSample_cons hin]; exact h p (by simp [hin])

/-- Settles O21, by induction on the number of steps: each only takes its sample. -/
theorem resultStaysUntilStartOrReset : Obligations.ResultStaysUntilStartOrReset := by
  intro n
  induction n with
  | zero => exact fun s _ _ => rfl
  | succ n ih =>
    intro s hidle hquiet
    obtain ⟨hrst, hstart⟩ := portSample_quiet hquiet
    have hquiet' : ∀ p ∈ (takeSample s).inputs.take n, p.rst = false ∧ p.start = false := fun p hp =>
      hquiet p (List.mem_of_mem_tail (by rwa [List.tail_take_eq_take_tail, Nat.add_sub_cancel]))
    refine runFor_succ_eq_next_iff.mpr ⟨_, step_eq_takeSample hrst hidle hstart, ?_⟩
    rw [ih (takeSample s) hidle hquiet', takeSample_inputs, List.drop_tail]
    rfl

/-- The micro-operations that end a run, with what they leave: `REL`, and `CHK` or `PAD` with an error
(44_engine.md R165, 60_exceptions.md R196). -/
theorem performs_ends_run {i : Instr} (h : Performs s i t) (hbusy : s.busy = true) (hidle : t.busy = false) :
    t.upc = 0 ∧ t.pbv = false ∧ t.done = true ∧
      ((i = .rel ∧ t.dvalid = true ∧ t.err = s.err ∧ t.digest = s.digest) ∨
       ((i = .chk ∨ i = .pad) ∧ t.dvalid = false ∧ t.err ≠ 0 ∧ t.digest = none)) := by
  cases h with
  | rel => exact ⟨rfl, rfl, rfl, .inl ⟨rfl, rfl, rfl, rfl⟩⟩
  | chkRaise => exact ⟨rfl, rfl, rfl, .inr ⟨.inl rfl, rfl, errCode_ne_zero .nullInput, rfl⟩⟩
  | padRaise e => exact ⟨rfl, rfl, rfl, .inr ⟨.inr rfl, rfl, errCode_ne_zero e, rfl⟩⟩
  | _ => simp [hbusy] at hidle

/-- Settles O39: the micro-operations that end a run stand in the slots 134, 0 and 2. -/
theorem runEndsOnlyByRelOrError : Obligations.RunEndsOnlyByRelOrError := by
  intro s t hbusy hrst hstep hidle
  have hrst := (portSample_rst_eq_false_iff s).mpr hrst
  obtain ⟨hrst', -⟩ | ⟨-, i, hslot, hi⟩ | ⟨hidle', -⟩ | ⟨hidle', -⟩ := step_performs hstep
  · exact absurd (hrst.symm.trans hrst') nofun
  · obtain ⟨hupc, hpbv, hdone, ⟨rfl, hrel⟩ | ⟨hi, herror⟩⟩ := performs_ends_run hi hbusy hidle
    · exact ⟨hupc, hpbv, hdone, .inl ⟨BitVec.eq_of_toNat_eq hslot.symm, hrel⟩⟩
    · refine ⟨hupc, hpbv, hdone, .inr ⟨?_, herror⟩⟩
      obtain rfl | rfl := hi <;> simp [← hslot, romSlot]
  · exact absurd (hbusy.symm.trans hidle') nofun
  · exact absurd (hbusy.symm.trans hidle') nofun

/-- Settles O17: the state of `acceptStart`, field by field. -/
theorem startBeginsARun : Obligations.StartBeginsARun := by
  intro s p ps hin hstart hrst hidle
  rw [step_eq_acceptStart_of_cons hin hrst hstart hidle, takeSample, hin]
  rfl

/-- Settles O18: the step of the sequencer sees of the sample only that it has been taken. -/
theorem startWhileBusyIsIgnored : Obligations.StartWhileBusyIsIgnored := by
  intro s p ps hin hrst hbusy
  obtain rfl := portSample_cons hin
  rw [step_eq_sequencerStep hrst hbusy, step_eq_sequencerStep (by rfl) (by exact hbusy), takeSample, takeSample, hin]
  rfl

end Sys2Proof.Machine

/-! ### The Hash Engine: `CHK`, `INIT`, `SER` and `REL` -/

namespace Sys2Proof.Machine

/-- Settles O1: the word is that of `CHK`, and `MV` chooses between the advance and the error. -/
theorem chkChecksForAMessage : Obligations.ChkChecksForAMessage :=
  ⟨decode_encode (i := .chk) rfl, romWord_romSlot (i := .chk) rfl, fun _ hmv => exec_eq_next_iff.mpr (.chk hmv),
    fun _ hmv => exec_eq_next_iff.mpr (.chkRaise hmv)⟩

/-- Settles O2: the word is that of `INIT`, and the eight values are those of `iv`. -/
theorem initLoadsTheInitialHash : Obligations.InitLoadsTheInitialHash :=
  ⟨decode_encode (i := .init) rfl, romWord_romSlot (i := .init) rfl, fun _ => exec_eq_next_iff.mpr .init⟩

/-- Bytes `4 * i` to `4 * i + 3` of the serialised hash state are those of word `i` (20_memory.md R55). -/
theorem getElem?_bytesOfWords (x : Vector Word 8) (i : Fin 8) {k : Nat} (hk : k < 4) :
    (bytesOfWords x).toList[4 * i.val + k]? = (bytes32 x[i])[k]? := by
  obtain rfl | rfl | rfl | rfl : k = 0 ∨ k = 1 ∨ k = 2 ∨ k = 3 := by omega
  all_goals fin_cases i <;> rfl

/-- Settles O13: the word is that of `SER`, and the digest is `bytesOfWords` of the hash state, read byte by byte. -/
theorem serSerialisesTheHash : Obligations.SerSerialisesTheHash := by
  refine ⟨decode_encode (i := .ser) rfl, romWord_romSlot (i := .ser) rfl, fun s => ?_⟩
  have hbyte {i : Fin 8} {k : Nat} (hk : k < 4) := getElem?_bytesOfWords s.h i hk
  exact ⟨bytesOfWords s.h, exec_eq_next_iff.mpr .ser, fun i =>
    ⟨hbyte (k := 0) (by omega), hbyte (k := 1) (by omega), hbyte (k := 2) (by omega), hbyte (k := 3) (by omega)⟩⟩

/-- Settles O14: the word is that of `REL`, and its meaning is the release and the flags of a run that ends well. -/
theorem relEndsTheRun : Obligations.RelEndsTheRun :=
  ⟨decode_encode (i := .rel) rfl, romWord_romSlot (i := .rel) rfl, fun _ => ⟨_, exec_eq_next_iff.mpr .rel⟩⟩

end Sys2Proof.Machine

/-! ### The errors: what raising one does, when `PAD` raises, and the runs that end so -/

namespace Sys2Proof.Machine

variable {s : State} {p : PortIn} {ps : List PortIn} {e : ErrorKind}

/-- Settles O15: the state of `raise`, field by field, with the code of the error kind. -/
theorem errorEntryEndsTheRun : Obligations.ErrorEntryEndsTheRun := by
  intro s e code hnull halloc hlarge
  have hcode : code = errCode e := by
    cases e with
    | nullInput => exact hnull rfl
    | allocationFailure => exact halloc rfl
    | inputTooLarge => exact hlarge rfl
  exact ⟨s.draws + 1, hcode ▸ rfl⟩

theorem padError_eq_inputTooLarge (hlen : 2 ^ 61 ≤ s.len.toNat) : padError s = some .inputTooLarge := if_pos hlen

theorem padError_eq_allocationFailure (hlen : s.len.toNat < 2 ^ 61) (hcap : s.pbCap < padLength s.len.toNat) :
    padError s = some .allocationFailure := by
  rw [padError, if_neg (Nat.not_le.mpr hlen), if_pos hcap]

/-- A `PAD` whose tests find an error raises it and reads no byte of the message (60_exceptions.md R192, R193). -/
theorem exec_pad_of_error (he : padError s = some e) : exec .pad s = .next (raise e s) ∧ padReads s = [] :=
  ⟨exec_eq_next_iff.mpr (.padRaise e he), padReads_of_error he⟩

/-- Settles O3: from `2 ^ 61` bytes on the length test finds its error, below that the capacity test. -/
theorem padRaisesItsTwoErrors : Obligations.PadRaisesItsTwoErrors := by
  refine ⟨fun s hlen => exec_pad_of_error (padError_eq_inputTooLarge hlen), fun s z hz hlen hcap => ?_⟩
  obtain rfl : z = padZeros s.len.toNat := by exact_mod_cast hz.trans (cast_padZeros s.len.toNat).symm
  exact exec_pad_of_error (padError_eq_allocationFailure hlen hcap)

/-- A run without a message ends in `CHK`, the first micro-operation (44_engine.md R162). -/
theorem runFor_raise_of_no_message (hin : s.inputs = p :: ps) (hidle : s.busy = false) (hstart : p.start = true)
    (hmv : p.msgValid = false) (hreset : s.noReset 2) :
    runFor 2 s = .next (raise .nullInput (takeSample (acceptStart p (takeSample s)))) := by
  have hrst : p.rst = false := hreset p (by simp [hin])
  have hrunStart := runFor_succ (n := 0) rfl (step_eq_acceptStart_of_cons hin hrst hstart hidle)
  exact runFor_succ_of_performs hreset hrunStart rfl rfl rfl (.chkRaise hmv)

/-- A run whose message does not pass the tests of `PAD` ends in `PAD`, the third micro-operation (60_exceptions.md R192,
R193). -/
theorem runFor_raise_of_padError (hin : s.inputs = p :: ps) (hidle : s.busy = false) (hstart : p.start = true)
    (hmv : p.msgValid = true) (hreset : s.noReset 4) (he : padError (takeSample (s.beforePad p)) = some e) :
    runFor 4 s = .next (raise e (takeSample (s.beforePad p))) :=
  have hrun := runFor_beforePad hin hidle hstart hmv (hreset.mono (by omega))
  runFor_succ_of_performs hreset hrun rfl rfl rfl (.padRaise e he)

/-- Settles O48: `CHK` raises `NullInput`, and `PAD`, which meets the initial hash state, the error its tests find. -/
theorem otherRunsEndWithTheirError : Obligations.OtherRunsEndWithTheirError := by
  intro s p ps hin hrst hstart hidle hps
  have hreset : s.noReset 4 := noReset_succ_of_cons hin hrst hps
  refine ⟨fun hmv => ?_, fun hmv hlen => ?_, fun hmv hlen hcap => ?_⟩
  · exact ⟨_, runFor_raise_of_no_message hin hidle hstart hmv (hreset.mono (by omega)),
      by simp [errCode]⟩
  · exact ⟨_, runFor_raise_of_padError hin hidle hstart hmv hreset (padError_eq_inputTooLarge hlen),
      by simp [errCode, State.beforePad]⟩
  · exact ⟨_, runFor_raise_of_padError hin hidle hstart hmv hreset (padError_eq_allocationFailure hlen hcap),
      by simp [errCode, State.beforePad]⟩

end Sys2Proof.Machine

/-! ### Reset -/

namespace Sys2Proof.Machine

/-- Settles O19: whatever `start` and `BUSY` are, the step is `applyReset`, whose fields are the values of 10_state.md R37. -/
theorem resetWinsOverEverything : Obligations.ResetWinsOverEverything := by
  intro s p ps hin hrst
  have hstep : step s = .next (applyReset (takeSample s)) := step_eq_applyReset (by rwa [portSample_cons hin])
  exact ⟨_, hstep, by simp [hin]⟩

end Sys2Proof.Machine

/-! ### `WLD` on unwritten bytes and at the end of the `PB` memory -/

namespace Sys2Proof.Machine

/-- The bound test of `WLD` fails as soon as the last of the four bytes does not exist (20_memory.md R61). -/
theorem execWld_outside {t : BitVec 6} {s : State} (ht : t.toNat ≤ 15) (hout : s.pbCap ≤ wldOffset s.blk t + 3) :
    execWld t s = .fault .pbOutside := by
  have hbound : ¬ pbInside s (wldOffset s.blk t) = true := by simpa [pbInside] using hout
  rw [execWld, if_pos ht, if_neg hbound]

/-- Settles O7: inside the memory the word is what `pbWord` reads, free values included; outside it the bound test fails. -/
theorem wldCompletesInsideTheMemory : Obligations.WldCompletesInsideTheMemory :=
  ⟨fun s t ht hin => ⟨pbWord s (wldOffset s.blk t), execWld_eq ht hin⟩, fun _ _ ht hout => execWld_outside ht hout⟩

end Sys2Proof.Machine
